-- ==== Sys2Proof/Word.lean ====
section
/-! DEFINITION. The word types of the IUE: a memory byte and a 32-bit register (spec R27, R62). -/

namespace Sys2Proof

/-- One byte of memory, of the input or of the output (R62). -/
abbrev Byte := BitVec 8

/-- One 32-bit register of the register block, or one bus address (R27, R67). -/
abbrev Word := BitVec 32

end Sys2Proof
end

