-- ==== Sys2Proof/Syntax.lean ====
section
/-! DEFINITION. The instructions of the IUE: one constructor for each of the 128 rows of spec/opcode_table.json
(R80 to R104), and the value spaces (formats) their words belong to. The host's commands and the tokens of the
input are both instructions (30_encoding.md). -/

namespace Sys2Proof

/-- The value space a row of the opcode table numbers its words in. The two symbol alphabets of format HSYM (R85)
are told apart, since they are decoded with two code tables. -/
inductive Format where
  | cmd | status | zhdr | bhdr | stored | dynHdr | clSym | litLen | dist | trailer | filterRow | codeLen
  deriving DecidableEq, Repr

/-- Why a value names no instruction. -/
inductive DecodeError where
  /-- A CTRL write with neither START nor ABORT set: it stores OP and IE and starts nothing (R28). -/
  | noCommand
  /-- The value lies outside the format's value space. -/
  | outOfRange
  deriving DecidableEq, Repr

/-- The instructions, one constructor for each row of spec/opcode_table.json. -/
inductive Instr where
  -- Commands: a CTRL write with START = 1 (format CMD, R80, R100). `abort` and `ie` are bits 1 and 2 of the word; its
  -- reserved bits 3 and 31:8 are ignored.
  | inflate (abort : Bool) (ie : Bool)
  | unfilter (abort : Bool) (ie : Bool)
  | huffBuild (abort : Bool) (ie : Bool)
  | cmdReservedOp0 (abort : Bool) (ie : Bool)
  | cmdReservedOp4 (abort : Bool) (ie : Bool)
  | cmdReservedOp5 (abort : Bool) (ie : Bool)
  | cmdReservedOp6 (abort : Bool) (ie : Bool)
  | cmdReservedOp7 (abort : Bool) (ie : Bool)
  | cmdReservedOp8 (abort : Bool) (ie : Bool)
  | cmdReservedOp9 (abort : Bool) (ie : Bool)
  | cmdReservedOp10 (abort : Bool) (ie : Bool)
  | cmdReservedOp11 (abort : Bool) (ie : Bool)
  | cmdReservedOp12 (abort : Bool) (ie : Bool)
  | cmdReservedOp13 (abort : Bool) (ie : Bool)
  | cmdReservedOp14 (abort : Bool) (ie : Bool)
  | cmdReservedOp15 (abort : Bool) (ie : Bool)
  -- A CTRL write with ABORT = 1 and START = 0 (R127); `op` is OP, bits 7:4.
  | abort (ie : Bool) (op : BitVec 4)
  -- A STATUS write (R128): bit 1 clears DONE, bit 2 clears ERR.
  | statusClear (done : Bool) (err : Bool)
  -- zlib header (format ZHDR, R81, R174).
  | zhdr (cmf : Byte) (flg : Byte)
  -- Block header (format BHDR, R82, R101, R171), one constructor for each BTYPE; `final` is BFINAL.
  | blockStored (final : Bool)
  | blockFixed (final : Bool)
  | blockDynamic (final : Bool)
  | blockReserved (final : Bool)
  -- Stored-block header (format STORED, R83, R172).
  | storedLen (len : BitVec 16) (nlen : BitVec 16)
  -- Dynamic-block header counts as they stand in the stream (format DYNHDR, R84, R210): HLIT − 257, HDIST − 1, HCLEN − 4.
  | dynHdr (hlit : BitVec 5) (hdist : BitVec 5) (hclen : BitVec 4)
  -- Code-length symbols (format CLSYM, R87, R213 to R216), as DecodeSym(TCL) gives them.
  | clLen0 | clLen1 | clLen2 | clLen3 | clLen4 | clLen5 | clLen6 | clLen7 | clLen8 | clLen9 | clLen10
  | clLen11 | clLen12 | clLen13 | clLen14 | clLen15 | clRepPrev | clRepZeroShort | clRepZeroLong
  -- Literal/length symbols (format HSYM, R85, R102, R221 to R224), as DecodeSym(TLL) gives them.
  | lit (b : Byte)
  | eob | len257 | len258 | len259 | len260 | len261 | len262 | len263 | len264 | len265 | len266 | len267
  | len268 | len269 | len270 | len271 | len272 | len273 | len274 | len275 | len276 | len277 | len278 | len279
  | len280 | len281 | len282 | len283 | len284 | len285 | llReserved286 | llReserved287
  -- Distance symbols (format HSYM, R102, R225, R226), as DecodeSym(TD) gives them.
  | dist0 | dist1 | dist2 | dist3 | dist4 | dist5 | dist6 | dist7 | dist8 | dist9 | dist10 | dist11 | dist12
  | dist13 | dist14 | dist15 | dist16 | dist17 | dist18 | dist19 | dist20 | dist21 | dist22 | dist23 | dist24
  | dist25 | dist26 | dist27 | dist28 | dist29 | distReserved30 | distReserved31
  -- zlib trailer (format TRAILER, R86, R178); `a` is the big-endian value A.
  | trailer (a : Word)
  -- Filter-type bytes (format FROW, R88, R103, R241 to R249); `low` holds the bits the row leaves free.
  | filterNone | filterSub | filterUp | filterAverage | filterPaeth | filterReserved5 | filterReserved6
  | filterReserved7
  | filterReserved8to15 (low : BitVec 3)
  | filterReserved16to31 (low : BitVec 4)
  | filterReserved32to63 (low : BitVec 5)
  | filterReserved64to127 (low : BitVec 6)
  | filterReserved128to255 (low : BitVec 7)
  -- Code-length bytes of HUFF_BUILD (format HBLEN, R89, R150).
  | hblen (len : BitVec 4)
  | hblenInvalid16to31 (low : BitVec 4)
  | hblenInvalid32to63 (low : BitVec 5)
  | hblenInvalid64to127 (low : BitVec 6)
  | hblenInvalid128to255 (low : BitVec 7)
  deriving DecidableEq, Repr

/-- The row of spec/opcode_table.json an instruction stands for, by its mnemonic. -/
def Instr.mnemonic : Instr → String
  | .inflate _ _ => "INFLATE"
  | .unfilter _ _ => "UNFILTER"
  | .huffBuild _ _ => "HUFF_BUILD"
  | .cmdReservedOp0 _ _ => "CMD_RESERVED_OP0"
  | .cmdReservedOp4 _ _ => "CMD_RESERVED_OP4"
  | .cmdReservedOp5 _ _ => "CMD_RESERVED_OP5"
  | .cmdReservedOp6 _ _ => "CMD_RESERVED_OP6"
  | .cmdReservedOp7 _ _ => "CMD_RESERVED_OP7"
  | .cmdReservedOp8 _ _ => "CMD_RESERVED_OP8"
  | .cmdReservedOp9 _ _ => "CMD_RESERVED_OP9"
  | .cmdReservedOp10 _ _ => "CMD_RESERVED_OP10"
  | .cmdReservedOp11 _ _ => "CMD_RESERVED_OP11"
  | .cmdReservedOp12 _ _ => "CMD_RESERVED_OP12"
  | .cmdReservedOp13 _ _ => "CMD_RESERVED_OP13"
  | .cmdReservedOp14 _ _ => "CMD_RESERVED_OP14"
  | .cmdReservedOp15 _ _ => "CMD_RESERVED_OP15"
  | .abort _ _ => "ABORT"
  | .statusClear _ _ => "STATUS_CLEAR"
  | .zhdr _ _ => "ZHDR"
  | .blockStored _ => "BLOCK_STORED"
  | .blockFixed _ => "BLOCK_FIXED"
  | .blockDynamic _ => "BLOCK_DYNAMIC"
  | .blockReserved _ => "BLOCK_RESERVED"
  | .storedLen _ _ => "STORED_LEN"
  | .dynHdr _ _ _ => "DYNHDR"
  | .clLen0 => "CL_LEN0"
  | .clLen1 => "CL_LEN1"
  | .clLen2 => "CL_LEN2"
  | .clLen3 => "CL_LEN3"
  | .clLen4 => "CL_LEN4"
  | .clLen5 => "CL_LEN5"
  | .clLen6 => "CL_LEN6"
  | .clLen7 => "CL_LEN7"
  | .clLen8 => "CL_LEN8"
  | .clLen9 => "CL_LEN9"
  | .clLen10 => "CL_LEN10"
  | .clLen11 => "CL_LEN11"
  | .clLen12 => "CL_LEN12"
  | .clLen13 => "CL_LEN13"
  | .clLen14 => "CL_LEN14"
  | .clLen15 => "CL_LEN15"
  | .clRepPrev => "CL_REP_PREV"
  | .clRepZeroShort => "CL_REP_ZERO_SHORT"
  | .clRepZeroLong => "CL_REP_ZERO_LONG"
  | .lit _ => "LIT"
  | .eob => "EOB"
  | .len257 => "LEN257"
  | .len258 => "LEN258"
  | .len259 => "LEN259"
  | .len260 => "LEN260"
  | .len261 => "LEN261"
  | .len262 => "LEN262"
  | .len263 => "LEN263"
  | .len264 => "LEN264"
  | .len265 => "LEN265"
  | .len266 => "LEN266"
  | .len267 => "LEN267"
  | .len268 => "LEN268"
  | .len269 => "LEN269"
  | .len270 => "LEN270"
  | .len271 => "LEN271"
  | .len272 => "LEN272"
  | .len273 => "LEN273"
  | .len274 => "LEN274"
  | .len275 => "LEN275"
  | .len276 => "LEN276"
  | .len277 => "LEN277"
  | .len278 => "LEN278"
  | .len279 => "LEN279"
  | .len280 => "LEN280"
  | .len281 => "LEN281"
  | .len282 => "LEN282"
  | .len283 => "LEN283"
  | .len284 => "LEN284"
  | .len285 => "LEN285"
  | .llReserved286 => "LL_RESERVED286"
  | .llReserved287 => "LL_RESERVED287"
  | .dist0 => "DIST0"
  | .dist1 => "DIST1"
  | .dist2 => "DIST2"
  | .dist3 => "DIST3"
  | .dist4 => "DIST4"
  | .dist5 => "DIST5"
  | .dist6 => "DIST6"
  | .dist7 => "DIST7"
  | .dist8 => "DIST8"
  | .dist9 => "DIST9"
  | .dist10 => "DIST10"
  | .dist11 => "DIST11"
  | .dist12 => "DIST12"
  | .dist13 => "DIST13"
  | .dist14 => "DIST14"
  | .dist15 => "DIST15"
  | .dist16 => "DIST16"
  | .dist17 => "DIST17"
  | .dist18 => "DIST18"
  | .dist19 => "DIST19"
  | .dist20 => "DIST20"
  | .dist21 => "DIST21"
  | .dist22 => "DIST22"
  | .dist23 => "DIST23"
  | .dist24 => "DIST24"
  | .dist25 => "DIST25"
  | .dist26 => "DIST26"
  | .dist27 => "DIST27"
  | .dist28 => "DIST28"
  | .dist29 => "DIST29"
  | .distReserved30 => "DIST_RESERVED30"
  | .distReserved31 => "DIST_RESERVED31"
  | .trailer _ => "TRAILER"
  | .filterNone => "FILTER_NONE"
  | .filterSub => "FILTER_SUB"
  | .filterUp => "FILTER_UP"
  | .filterAverage => "FILTER_AVERAGE"
  | .filterPaeth => "FILTER_PAETH"
  | .filterReserved5 => "FILTER_RESERVED_5_5"
  | .filterReserved6 => "FILTER_RESERVED_6_6"
  | .filterReserved7 => "FILTER_RESERVED_7_7"
  | .filterReserved8to15 _ => "FILTER_RESERVED_8_15"
  | .filterReserved16to31 _ => "FILTER_RESERVED_16_31"
  | .filterReserved32to63 _ => "FILTER_RESERVED_32_63"
  | .filterReserved64to127 _ => "FILTER_RESERVED_64_127"
  | .filterReserved128to255 _ => "FILTER_RESERVED_128_255"
  | .hblen _ => "HBLEN"
  | .hblenInvalid16to31 _ => "HBLEN_INVALID_16_31"
  | .hblenInvalid32to63 _ => "HBLEN_INVALID_32_63"
  | .hblenInvalid64to127 _ => "HBLEN_INVALID_64_127"
  | .hblenInvalid128to255 _ => "HBLEN_INVALID_128_255"

end Sys2Proof
end

