-- ==== Sys2Proof/WellFormed.lean ====
section
/-! DEFINITION. Which instructions are well formed: the conditions that the opcode table and R81, R83 and R210 put on
an instruction's own fields. Every other instruction is well formed by its type. An ill-formed token is still
decoded, and its meaning raises the error its rule names. -/

namespace Sys2Proof

/-- CM = 8 (R81). -/
def headerMethodOk (cmf : Byte) : Bool := cmf.toNat % 16 == 8

/-- FDICT = 0 (R81). -/
def headerNoDict (flg : Byte) : Bool := flg.toNat / 32 % 2 == 0

/-- `(CMF·256 + FLG) mod 31 = 0` (R81). -/
def headerCheckOk (cmf flg : Byte) : Bool := (cmf.toNat * 256 + flg.toNat) % 31 == 0

/-- The three tests of a zlib header (R174). -/
def headerOk (cmf flg : Byte) : Bool := headerMethodOk cmf && headerNoDict flg && headerCheckOk cmf flg

/-- `LEN + NLEN = 0xFFFF`, on the integer sum (R83, R172). -/
def storedOk (len nlen : BitVec 16) : Bool := len.toNat + nlen.toNat == 0xFFFF

/-- `HLIT ≤ 286` for the 5-bit field `HLIT − 257` (R104, R210). -/
def hlitOk (hlit : BitVec 5) : Bool := hlit.toNat + 257 ≤ 286

/-- The conditions the table puts on an instruction's own fields. -/
def WellFormed : Instr → Bool
  | .zhdr cmf flg => headerOk cmf flg
  | .storedLen len nlen => storedOk len nlen
  | .dynHdr hlit _ _ => hlitOk hlit
  | .inflate _ _ => true
  | .unfilter _ _ => true
  | .huffBuild _ _ => true
  | .cmdReservedOp0 _ _ => true
  | .cmdReservedOp4 _ _ => true
  | .cmdReservedOp5 _ _ => true
  | .cmdReservedOp6 _ _ => true
  | .cmdReservedOp7 _ _ => true
  | .cmdReservedOp8 _ _ => true
  | .cmdReservedOp9 _ _ => true
  | .cmdReservedOp10 _ _ => true
  | .cmdReservedOp11 _ _ => true
  | .cmdReservedOp12 _ _ => true
  | .cmdReservedOp13 _ _ => true
  | .cmdReservedOp14 _ _ => true
  | .cmdReservedOp15 _ _ => true
  | .abort _ _ => true
  | .statusClear _ _ => true
  | .blockStored _ => true
  | .blockFixed _ => true
  | .blockDynamic _ => true
  | .blockReserved _ => true
  | .clLen0 => true
  | .clLen1 => true
  | .clLen2 => true
  | .clLen3 => true
  | .clLen4 => true
  | .clLen5 => true
  | .clLen6 => true
  | .clLen7 => true
  | .clLen8 => true
  | .clLen9 => true
  | .clLen10 => true
  | .clLen11 => true
  | .clLen12 => true
  | .clLen13 => true
  | .clLen14 => true
  | .clLen15 => true
  | .clRepPrev => true
  | .clRepZeroShort => true
  | .clRepZeroLong => true
  | .lit _ => true
  | .eob => true
  | .len257 => true
  | .len258 => true
  | .len259 => true
  | .len260 => true
  | .len261 => true
  | .len262 => true
  | .len263 => true
  | .len264 => true
  | .len265 => true
  | .len266 => true
  | .len267 => true
  | .len268 => true
  | .len269 => true
  | .len270 => true
  | .len271 => true
  | .len272 => true
  | .len273 => true
  | .len274 => true
  | .len275 => true
  | .len276 => true
  | .len277 => true
  | .len278 => true
  | .len279 => true
  | .len280 => true
  | .len281 => true
  | .len282 => true
  | .len283 => true
  | .len284 => true
  | .len285 => true
  | .llReserved286 => true
  | .llReserved287 => true
  | .dist0 => true
  | .dist1 => true
  | .dist2 => true
  | .dist3 => true
  | .dist4 => true
  | .dist5 => true
  | .dist6 => true
  | .dist7 => true
  | .dist8 => true
  | .dist9 => true
  | .dist10 => true
  | .dist11 => true
  | .dist12 => true
  | .dist13 => true
  | .dist14 => true
  | .dist15 => true
  | .dist16 => true
  | .dist17 => true
  | .dist18 => true
  | .dist19 => true
  | .dist20 => true
  | .dist21 => true
  | .dist22 => true
  | .dist23 => true
  | .dist24 => true
  | .dist25 => true
  | .dist26 => true
  | .dist27 => true
  | .dist28 => true
  | .dist29 => true
  | .distReserved30 => true
  | .distReserved31 => true
  | .trailer _ => true
  | .filterNone => true
  | .filterSub => true
  | .filterUp => true
  | .filterAverage => true
  | .filterPaeth => true
  | .filterReserved5 => true
  | .filterReserved6 => true
  | .filterReserved7 => true
  | .filterReserved8to15 _ => true
  | .filterReserved16to31 _ => true
  | .filterReserved32to63 _ => true
  | .filterReserved64to127 _ => true
  | .filterReserved128to255 _ => true
  | .hblen _ => true
  | .hblenInvalid16to31 _ => true
  | .hblenInvalid32to63 _ => true
  | .hblenInvalid64to127 _ => true
  | .hblenInvalid128to255 _ => true

end Sys2Proof
end

