-- ==== Sys2Proof/Decode.lean ====
section
/-! DEFINITION. Decoding and encoding, over the value spaces of spec/opcode_table.json (R80 to R104).
A word of the table is a value of ONE format, and the position in the sequence says which (R105): a CTRL or STATUS
write, a fixed field of the stream, or a symbol that DecodeSym gives. How the value is read off the input bits is
the fetch's (Machine/Fetch.lean). `decode` is total and refuses by name; `encode` is written from the same rules. -/

namespace Sys2Proof

/-- Bit `k` of a value (R8). -/
def bitAt (v k : Nat) : Bool := v / 2 ^ k % 2 == 1

/-- The command of a CTRL write with START = 1, by its OP value 0 to 15 (R100). -/
def commandOf (abort ie : Bool) : List Instr :=
  [.cmdReservedOp0 abort ie, .inflate abort ie, .unfilter abort ie, .huffBuild abort ie,
   .cmdReservedOp4 abort ie, .cmdReservedOp5 abort ie, .cmdReservedOp6 abort ie, .cmdReservedOp7 abort ie,
   .cmdReservedOp8 abort ie, .cmdReservedOp9 abort ie, .cmdReservedOp10 abort ie, .cmdReservedOp11 abort ie,
   .cmdReservedOp12 abort ie, .cmdReservedOp13 abort ie, .cmdReservedOp14 abort ie, .cmdReservedOp15 abort ie]

/-- The code-length symbols 0 to 18, in order (R102). -/
def clSymbols : List Instr :=
  [.clLen0, .clLen1, .clLen2, .clLen3, .clLen4, .clLen5, .clLen6, .clLen7,
   .clLen8, .clLen9, .clLen10, .clLen11, .clLen12, .clLen13, .clLen14, .clLen15,
   .clRepPrev, .clRepZeroShort, .clRepZeroLong]

/-- The literal/length symbols 257 to 287, in order (R102). -/
def lengthSymbols : List Instr :=
  [.len257, .len258, .len259, .len260, .len261, .len262, .len263, .len264,
   .len265, .len266, .len267, .len268, .len269, .len270, .len271, .len272,
   .len273, .len274, .len275, .len276, .len277, .len278, .len279, .len280,
   .len281, .len282, .len283, .len284, .len285, .llReserved286, .llReserved287]

/-- The distance symbols 0 to 31, in order (R102). -/
def distanceSymbols : List Instr :=
  [.dist0, .dist1, .dist2, .dist3, .dist4, .dist5, .dist6, .dist7,
   .dist8, .dist9, .dist10, .dist11, .dist12, .dist13, .dist14, .dist15,
   .dist16, .dist17, .dist18, .dist19, .dist20, .dist21, .dist22, .dist23,
   .dist24, .dist25, .dist26, .dist27, .dist28, .dist29, .distReserved30, .distReserved31]

/-- A symbol of an alphabet listed in order, or no instruction. -/
def symbolAt (l : List Instr) (k : Nat) : Except DecodeError Instr :=
  match l[k]? with
  | some i => .ok i
  | none => .error .outOfRange

/-- A CTRL write (format CMD, R80): bits 3 and 31:8 are ignored. A word with START and ABORT both set is the command
with its `abort` operand (assumption 16). -/
def decodeCmd (v : Nat) : Except DecodeError Instr :=
  if bitAt v 0 then symbolAt (commandOf (bitAt v 1) (bitAt v 2)) (v / 16 % 16)
  else if bitAt v 1 then .ok (.abort (bitAt v 2) (BitVec.ofNat 4 (v / 16)))
  else .error .noCommand

/-- A block header value `BFINAL | BTYPE << 1` (format BHDR, R82, R101). -/
def decodeBlock (v : Nat) : Instr :=
  match v / 2 % 4 with
  | 0 => .blockStored (bitAt v 0)
  | 1 => .blockFixed (bitAt v 0)
  | 2 => .blockDynamic (bitAt v 0)
  | _ => .blockReserved (bitAt v 0)

/-- A literal/length symbol (R102). -/
def decodeLitLen (v : Nat) : Except DecodeError Instr :=
  if v < 256 then .ok (.lit (BitVec.ofNat 8 v))
  else if v = 256 then .ok .eob
  else symbolAt lengthSymbols (v - 257)

/-- A filter-type byte (R103): 0 to 4 are the five types, every other value is illegal. -/
def decodeFilter (v : Nat) : Instr :=
  if v = 0 then .filterNone
  else if v = 1 then .filterSub
  else if v = 2 then .filterUp
  else if v = 3 then .filterAverage
  else if v = 4 then .filterPaeth
  else if v = 5 then .filterReserved5
  else if v = 6 then .filterReserved6
  else if v = 7 then .filterReserved7
  else if v < 16 then .filterReserved8to15 (BitVec.ofNat 3 v)
  else if v < 32 then .filterReserved16to31 (BitVec.ofNat 4 v)
  else if v < 64 then .filterReserved32to63 (BitVec.ofNat 5 v)
  else if v < 128 then .filterReserved64to127 (BitVec.ofNat 6 v)
  else .filterReserved128to255 (BitVec.ofNat 7 v)

/-- A code-length byte of HUFF_BUILD (R89): 0 to 15 are lengths, every other value is illegal. -/
def decodeCodeLen (v : Nat) : Instr :=
  if v < 16 then .hblen (BitVec.ofNat 4 v)
  else if v < 32 then .hblenInvalid16to31 (BitVec.ofNat 4 v)
  else if v < 64 then .hblenInvalid32to63 (BitVec.ofNat 5 v)
  else if v < 128 then .hblenInvalid64to127 (BitVec.ofNat 6 v)
  else .hblenInvalid128to255 (BitVec.ofNat 7 v)

/-- How many bits the value space of a format has (R80 to R89); a symbol alphabet is bounded by its list instead. -/
def Format.bits : Format → Nat
  | .cmd => 32
  | .status => 32
  | .zhdr => 16
  | .bhdr => 3
  | .stored => 32
  | .dynHdr => 14
  | .clSym => 5
  | .litLen => 9
  | .dist => 5
  | .trailer => 32
  | .filterRow => 8
  | .codeLen => 8

/-- Decode one value of a format. Total: a value that names no instruction is refused by name. -/
def decode (f : Format) (v : Nat) : Except DecodeError Instr :=
  if 2 ^ f.bits ≤ v then .error .outOfRange
  else match f with
    | .cmd => decodeCmd v
    | .status => .ok (.statusClear (bitAt v 1) (bitAt v 2))
    | .zhdr => .ok (.zhdr (BitVec.ofNat 8 (v / 256)) (BitVec.ofNat 8 v))
    | .bhdr => .ok (decodeBlock v)
    | .stored => .ok (.storedLen (BitVec.ofNat 16 v) (BitVec.ofNat 16 (v / 65536)))
    | .dynHdr => .ok (.dynHdr (BitVec.ofNat 5 v) (BitVec.ofNat 5 (v / 32)) (BitVec.ofNat 4 (v / 1024)))
    | .clSym => symbolAt clSymbols v
    | .litLen => decodeLitLen v
    | .dist => symbolAt distanceSymbols v
    | .trailer => .ok (.trailer (BitVec.ofNat 32 v))
    | .filterRow => .ok (decodeFilter v)
    | .codeLen => .ok (decodeCodeLen v)

/-! ### The encoder -/

/-- The CTRL word of a command: START = 1, ABORT, IE, OP, reserved bits 0 (R80). -/
def ctrlWord (abort ie : Bool) (op : Nat) : Nat := 1 + 2 * abort.toNat + 4 * ie.toNat + 16 * op

/-- The format an instruction belongs to and its value there (R80 to R104). -/
def encode : Instr → Format × Nat
  | .inflate abort ie => (.cmd, ctrlWord abort ie 1)
  | .unfilter abort ie => (.cmd, ctrlWord abort ie 2)
  | .huffBuild abort ie => (.cmd, ctrlWord abort ie 3)
  | .cmdReservedOp0 abort ie => (.cmd, ctrlWord abort ie 0)
  | .cmdReservedOp4 abort ie => (.cmd, ctrlWord abort ie 4)
  | .cmdReservedOp5 abort ie => (.cmd, ctrlWord abort ie 5)
  | .cmdReservedOp6 abort ie => (.cmd, ctrlWord abort ie 6)
  | .cmdReservedOp7 abort ie => (.cmd, ctrlWord abort ie 7)
  | .cmdReservedOp8 abort ie => (.cmd, ctrlWord abort ie 8)
  | .cmdReservedOp9 abort ie => (.cmd, ctrlWord abort ie 9)
  | .cmdReservedOp10 abort ie => (.cmd, ctrlWord abort ie 10)
  | .cmdReservedOp11 abort ie => (.cmd, ctrlWord abort ie 11)
  | .cmdReservedOp12 abort ie => (.cmd, ctrlWord abort ie 12)
  | .cmdReservedOp13 abort ie => (.cmd, ctrlWord abort ie 13)
  | .cmdReservedOp14 abort ie => (.cmd, ctrlWord abort ie 14)
  | .cmdReservedOp15 abort ie => (.cmd, ctrlWord abort ie 15)
  | .abort ie op => (.cmd, 2 + 4 * ie.toNat + 16 * op.toNat)
  | .statusClear done err => (.status, 2 * done.toNat + 4 * err.toNat)
  | .zhdr cmf flg => (.zhdr, cmf.toNat * 256 + flg.toNat)
  | .blockStored final => (.bhdr, final.toNat + 2 * 0)
  | .blockFixed final => (.bhdr, final.toNat + 2 * 1)
  | .blockDynamic final => (.bhdr, final.toNat + 2 * 2)
  | .blockReserved final => (.bhdr, final.toNat + 2 * 3)
  | .storedLen len nlen => (.stored, len.toNat + 65536 * nlen.toNat)
  | .dynHdr hlit hdist hclen => (.dynHdr, hlit.toNat + 32 * hdist.toNat + 1024 * hclen.toNat)
  | .clLen0 => (.clSym, 0)
  | .clLen1 => (.clSym, 1)
  | .clLen2 => (.clSym, 2)
  | .clLen3 => (.clSym, 3)
  | .clLen4 => (.clSym, 4)
  | .clLen5 => (.clSym, 5)
  | .clLen6 => (.clSym, 6)
  | .clLen7 => (.clSym, 7)
  | .clLen8 => (.clSym, 8)
  | .clLen9 => (.clSym, 9)
  | .clLen10 => (.clSym, 10)
  | .clLen11 => (.clSym, 11)
  | .clLen12 => (.clSym, 12)
  | .clLen13 => (.clSym, 13)
  | .clLen14 => (.clSym, 14)
  | .clLen15 => (.clSym, 15)
  | .clRepPrev => (.clSym, 16)
  | .clRepZeroShort => (.clSym, 17)
  | .clRepZeroLong => (.clSym, 18)
  | .lit b => (.litLen, b.toNat)
  | .eob => (.litLen, 256)
  | .len257 => (.litLen, 257)
  | .len258 => (.litLen, 258)
  | .len259 => (.litLen, 259)
  | .len260 => (.litLen, 260)
  | .len261 => (.litLen, 261)
  | .len262 => (.litLen, 262)
  | .len263 => (.litLen, 263)
  | .len264 => (.litLen, 264)
  | .len265 => (.litLen, 265)
  | .len266 => (.litLen, 266)
  | .len267 => (.litLen, 267)
  | .len268 => (.litLen, 268)
  | .len269 => (.litLen, 269)
  | .len270 => (.litLen, 270)
  | .len271 => (.litLen, 271)
  | .len272 => (.litLen, 272)
  | .len273 => (.litLen, 273)
  | .len274 => (.litLen, 274)
  | .len275 => (.litLen, 275)
  | .len276 => (.litLen, 276)
  | .len277 => (.litLen, 277)
  | .len278 => (.litLen, 278)
  | .len279 => (.litLen, 279)
  | .len280 => (.litLen, 280)
  | .len281 => (.litLen, 281)
  | .len282 => (.litLen, 282)
  | .len283 => (.litLen, 283)
  | .len284 => (.litLen, 284)
  | .len285 => (.litLen, 285)
  | .llReserved286 => (.litLen, 286)
  | .llReserved287 => (.litLen, 287)
  | .dist0 => (.dist, 0)
  | .dist1 => (.dist, 1)
  | .dist2 => (.dist, 2)
  | .dist3 => (.dist, 3)
  | .dist4 => (.dist, 4)
  | .dist5 => (.dist, 5)
  | .dist6 => (.dist, 6)
  | .dist7 => (.dist, 7)
  | .dist8 => (.dist, 8)
  | .dist9 => (.dist, 9)
  | .dist10 => (.dist, 10)
  | .dist11 => (.dist, 11)
  | .dist12 => (.dist, 12)
  | .dist13 => (.dist, 13)
  | .dist14 => (.dist, 14)
  | .dist15 => (.dist, 15)
  | .dist16 => (.dist, 16)
  | .dist17 => (.dist, 17)
  | .dist18 => (.dist, 18)
  | .dist19 => (.dist, 19)
  | .dist20 => (.dist, 20)
  | .dist21 => (.dist, 21)
  | .dist22 => (.dist, 22)
  | .dist23 => (.dist, 23)
  | .dist24 => (.dist, 24)
  | .dist25 => (.dist, 25)
  | .dist26 => (.dist, 26)
  | .dist27 => (.dist, 27)
  | .dist28 => (.dist, 28)
  | .dist29 => (.dist, 29)
  | .distReserved30 => (.dist, 30)
  | .distReserved31 => (.dist, 31)
  | .trailer a => (.trailer, a.toNat)
  | .filterNone => (.filterRow, 0)
  | .filterSub => (.filterRow, 1)
  | .filterUp => (.filterRow, 2)
  | .filterAverage => (.filterRow, 3)
  | .filterPaeth => (.filterRow, 4)
  | .filterReserved5 => (.filterRow, 5)
  | .filterReserved6 => (.filterRow, 6)
  | .filterReserved7 => (.filterRow, 7)
  | .filterReserved8to15 low => (.filterRow, 8 + low.toNat)
  | .filterReserved16to31 low => (.filterRow, 16 + low.toNat)
  | .filterReserved32to63 low => (.filterRow, 32 + low.toNat)
  | .filterReserved64to127 low => (.filterRow, 64 + low.toNat)
  | .filterReserved128to255 low => (.filterRow, 128 + low.toNat)
  | .hblen len => (.codeLen, len.toNat)
  | .hblenInvalid16to31 low => (.codeLen, 16 + low.toNat)
  | .hblenInvalid32to63 low => (.codeLen, 32 + low.toNat)
  | .hblenInvalid64to127 low => (.codeLen, 64 + low.toNat)
  | .hblenInvalid128to255 low => (.codeLen, 128 + low.toNat)

/-! ### The rows of the opcode table, and the table's own numbering -/

/-- One row of spec/opcode_table.json: its mnemonic, its format, how many bits the table gives it (in whole bytes; the
value space's bits where it fixes none), and its fixed fields (hi, lo, value). -/
structure Row where
  mnemonic : String
  format : Format
  nbits : Nat
  fixed : List (Nat × Nat × Nat)
  deriving DecidableEq, Repr

/-- Whether a value has the row's fixed fields (the table's mask and match). -/
def Row.fits (r : Row) (v : Nat) : Bool :=
  r.fixed.all fun (hi, lo, x) => v / 2 ^ lo % 2 ^ (hi + 1 - lo) == x

/-- The row's match value: its fixed fields, every other bit 0. -/
def Row.matchValue (r : Row) : Nat := (r.fixed.map fun (_, lo, x) => x * 2 ^ lo).sum

/-- The rows of spec/opcode_table.json of the formats CMD and STATUS. -/
def rowsCommands : List Row :=
  [⟨"INFLATE", .cmd, 8, [(0, 0, 1), (7, 4, 1)]⟩,
   ⟨"UNFILTER", .cmd, 8, [(0, 0, 1), (7, 4, 2)]⟩,
   ⟨"HUFF_BUILD", .cmd, 8, [(0, 0, 1), (7, 4, 3)]⟩,
   ⟨"CMD_RESERVED_OP0", .cmd, 8, [(0, 0, 1), (7, 4, 0)]⟩,
   ⟨"CMD_RESERVED_OP4", .cmd, 8, [(0, 0, 1), (7, 4, 4)]⟩,
   ⟨"CMD_RESERVED_OP5", .cmd, 8, [(0, 0, 1), (7, 4, 5)]⟩,
   ⟨"CMD_RESERVED_OP6", .cmd, 8, [(0, 0, 1), (7, 4, 6)]⟩,
   ⟨"CMD_RESERVED_OP7", .cmd, 8, [(0, 0, 1), (7, 4, 7)]⟩,
   ⟨"CMD_RESERVED_OP8", .cmd, 8, [(0, 0, 1), (7, 4, 8)]⟩,
   ⟨"CMD_RESERVED_OP9", .cmd, 8, [(0, 0, 1), (7, 4, 9)]⟩,
   ⟨"CMD_RESERVED_OP10", .cmd, 8, [(0, 0, 1), (7, 4, 10)]⟩,
   ⟨"CMD_RESERVED_OP11", .cmd, 8, [(0, 0, 1), (7, 4, 11)]⟩,
   ⟨"CMD_RESERVED_OP12", .cmd, 8, [(0, 0, 1), (7, 4, 12)]⟩,
   ⟨"CMD_RESERVED_OP13", .cmd, 8, [(0, 0, 1), (7, 4, 13)]⟩,
   ⟨"CMD_RESERVED_OP14", .cmd, 8, [(0, 0, 1), (7, 4, 14)]⟩,
   ⟨"CMD_RESERVED_OP15", .cmd, 8, [(0, 0, 1), (7, 4, 15)]⟩,
   ⟨"ABORT", .cmd, 8, [(1, 1, 1)]⟩,
   ⟨"STATUS_CLEAR", .status, 32, []⟩]

/-- The rows of spec/opcode_table.json of the formats ZHDR, BHDR, STORED and DYNHDR. -/
def rowsFraming : List Row :=
  [⟨"ZHDR", .zhdr, 16, [(5, 5, 0), (11, 8, 8)]⟩,
   ⟨"BLOCK_STORED", .bhdr, 8, [(2, 1, 0)]⟩,
   ⟨"BLOCK_FIXED", .bhdr, 8, [(2, 1, 1)]⟩,
   ⟨"BLOCK_DYNAMIC", .bhdr, 8, [(2, 1, 2)]⟩,
   ⟨"BLOCK_RESERVED", .bhdr, 8, [(2, 1, 3)]⟩,
   ⟨"STORED_LEN", .stored, 32, []⟩,
   ⟨"DYNHDR", .dynHdr, 16, []⟩]

/-- The rows of spec/opcode_table.json of the formats CLSYM. -/
def rowsClSym : List Row :=
  [⟨"CL_LEN0", .clSym, 8, [(4, 0, 0)]⟩,
   ⟨"CL_LEN1", .clSym, 8, [(4, 0, 1)]⟩,
   ⟨"CL_LEN2", .clSym, 8, [(4, 0, 2)]⟩,
   ⟨"CL_LEN3", .clSym, 8, [(4, 0, 3)]⟩,
   ⟨"CL_LEN4", .clSym, 8, [(4, 0, 4)]⟩,
   ⟨"CL_LEN5", .clSym, 8, [(4, 0, 5)]⟩,
   ⟨"CL_LEN6", .clSym, 8, [(4, 0, 6)]⟩,
   ⟨"CL_LEN7", .clSym, 8, [(4, 0, 7)]⟩,
   ⟨"CL_LEN8", .clSym, 8, [(4, 0, 8)]⟩,
   ⟨"CL_LEN9", .clSym, 8, [(4, 0, 9)]⟩,
   ⟨"CL_LEN10", .clSym, 8, [(4, 0, 10)]⟩,
   ⟨"CL_LEN11", .clSym, 8, [(4, 0, 11)]⟩,
   ⟨"CL_LEN12", .clSym, 8, [(4, 0, 12)]⟩,
   ⟨"CL_LEN13", .clSym, 8, [(4, 0, 13)]⟩,
   ⟨"CL_LEN14", .clSym, 8, [(4, 0, 14)]⟩,
   ⟨"CL_LEN15", .clSym, 8, [(4, 0, 15)]⟩,
   ⟨"CL_REP_PREV", .clSym, 8, [(4, 0, 16)]⟩,
   ⟨"CL_REP_ZERO_SHORT", .clSym, 8, [(4, 0, 17)]⟩,
   ⟨"CL_REP_ZERO_LONG", .clSym, 8, [(4, 0, 18)]⟩]

/-- The rows of spec/opcode_table.json of the formats HSYM, literal/length. -/
def rowsLitLen : List Row :=
  [⟨"LIT", .litLen, 16, [(8, 8, 0)]⟩,
   ⟨"EOB", .litLen, 16, [(8, 0, 256)]⟩,
   ⟨"LEN257", .litLen, 16, [(8, 0, 257)]⟩,
   ⟨"LEN258", .litLen, 16, [(8, 0, 258)]⟩,
   ⟨"LEN259", .litLen, 16, [(8, 0, 259)]⟩,
   ⟨"LEN260", .litLen, 16, [(8, 0, 260)]⟩,
   ⟨"LEN261", .litLen, 16, [(8, 0, 261)]⟩,
   ⟨"LEN262", .litLen, 16, [(8, 0, 262)]⟩,
   ⟨"LEN263", .litLen, 16, [(8, 0, 263)]⟩,
   ⟨"LEN264", .litLen, 16, [(8, 0, 264)]⟩,
   ⟨"LEN265", .litLen, 16, [(8, 0, 265)]⟩,
   ⟨"LEN266", .litLen, 16, [(8, 0, 266)]⟩,
   ⟨"LEN267", .litLen, 16, [(8, 0, 267)]⟩,
   ⟨"LEN268", .litLen, 16, [(8, 0, 268)]⟩,
   ⟨"LEN269", .litLen, 16, [(8, 0, 269)]⟩,
   ⟨"LEN270", .litLen, 16, [(8, 0, 270)]⟩,
   ⟨"LEN271", .litLen, 16, [(8, 0, 271)]⟩,
   ⟨"LEN272", .litLen, 16, [(8, 0, 272)]⟩,
   ⟨"LEN273", .litLen, 16, [(8, 0, 273)]⟩,
   ⟨"LEN274", .litLen, 16, [(8, 0, 274)]⟩,
   ⟨"LEN275", .litLen, 16, [(8, 0, 275)]⟩,
   ⟨"LEN276", .litLen, 16, [(8, 0, 276)]⟩,
   ⟨"LEN277", .litLen, 16, [(8, 0, 277)]⟩,
   ⟨"LEN278", .litLen, 16, [(8, 0, 278)]⟩,
   ⟨"LEN279", .litLen, 16, [(8, 0, 279)]⟩,
   ⟨"LEN280", .litLen, 16, [(8, 0, 280)]⟩,
   ⟨"LEN281", .litLen, 16, [(8, 0, 281)]⟩,
   ⟨"LEN282", .litLen, 16, [(8, 0, 282)]⟩,
   ⟨"LEN283", .litLen, 16, [(8, 0, 283)]⟩,
   ⟨"LEN284", .litLen, 16, [(8, 0, 284)]⟩,
   ⟨"LEN285", .litLen, 16, [(8, 0, 285)]⟩,
   ⟨"LL_RESERVED286", .litLen, 16, [(8, 0, 286)]⟩,
   ⟨"LL_RESERVED287", .litLen, 16, [(8, 0, 287)]⟩]

/-- The rows of spec/opcode_table.json of the formats HSYM, distance. -/
def rowsDist : List Row :=
  [⟨"DIST0", .dist, 8, [(4, 0, 0)]⟩,
   ⟨"DIST1", .dist, 8, [(4, 0, 1)]⟩,
   ⟨"DIST2", .dist, 8, [(4, 0, 2)]⟩,
   ⟨"DIST3", .dist, 8, [(4, 0, 3)]⟩,
   ⟨"DIST4", .dist, 8, [(4, 0, 4)]⟩,
   ⟨"DIST5", .dist, 8, [(4, 0, 5)]⟩,
   ⟨"DIST6", .dist, 8, [(4, 0, 6)]⟩,
   ⟨"DIST7", .dist, 8, [(4, 0, 7)]⟩,
   ⟨"DIST8", .dist, 8, [(4, 0, 8)]⟩,
   ⟨"DIST9", .dist, 8, [(4, 0, 9)]⟩,
   ⟨"DIST10", .dist, 8, [(4, 0, 10)]⟩,
   ⟨"DIST11", .dist, 8, [(4, 0, 11)]⟩,
   ⟨"DIST12", .dist, 8, [(4, 0, 12)]⟩,
   ⟨"DIST13", .dist, 8, [(4, 0, 13)]⟩,
   ⟨"DIST14", .dist, 8, [(4, 0, 14)]⟩,
   ⟨"DIST15", .dist, 8, [(4, 0, 15)]⟩,
   ⟨"DIST16", .dist, 8, [(4, 0, 16)]⟩,
   ⟨"DIST17", .dist, 8, [(4, 0, 17)]⟩,
   ⟨"DIST18", .dist, 16, [(4, 0, 18)]⟩,
   ⟨"DIST19", .dist, 16, [(4, 0, 19)]⟩,
   ⟨"DIST20", .dist, 16, [(4, 0, 20)]⟩,
   ⟨"DIST21", .dist, 16, [(4, 0, 21)]⟩,
   ⟨"DIST22", .dist, 16, [(4, 0, 22)]⟩,
   ⟨"DIST23", .dist, 16, [(4, 0, 23)]⟩,
   ⟨"DIST24", .dist, 16, [(4, 0, 24)]⟩,
   ⟨"DIST25", .dist, 16, [(4, 0, 25)]⟩,
   ⟨"DIST26", .dist, 16, [(4, 0, 26)]⟩,
   ⟨"DIST27", .dist, 16, [(4, 0, 27)]⟩,
   ⟨"DIST28", .dist, 16, [(4, 0, 28)]⟩,
   ⟨"DIST29", .dist, 16, [(4, 0, 29)]⟩,
   ⟨"DIST_RESERVED30", .dist, 8, [(4, 0, 30)]⟩,
   ⟨"DIST_RESERVED31", .dist, 8, [(4, 0, 31)]⟩]

/-- The rows of spec/opcode_table.json of the formats TRAILER, FROW and HBLEN. -/
def rowsRest : List Row :=
  [⟨"TRAILER", .trailer, 32, []⟩,
   ⟨"FILTER_NONE", .filterRow, 8, [(7, 0, 0)]⟩,
   ⟨"FILTER_SUB", .filterRow, 8, [(7, 0, 1)]⟩,
   ⟨"FILTER_UP", .filterRow, 8, [(7, 0, 2)]⟩,
   ⟨"FILTER_AVERAGE", .filterRow, 8, [(7, 0, 3)]⟩,
   ⟨"FILTER_PAETH", .filterRow, 8, [(7, 0, 4)]⟩,
   ⟨"FILTER_RESERVED_5_5", .filterRow, 8, [(7, 0, 5)]⟩,
   ⟨"FILTER_RESERVED_6_6", .filterRow, 8, [(7, 0, 6)]⟩,
   ⟨"FILTER_RESERVED_7_7", .filterRow, 8, [(7, 0, 7)]⟩,
   ⟨"FILTER_RESERVED_8_15", .filterRow, 8, [(7, 3, 1)]⟩,
   ⟨"FILTER_RESERVED_16_31", .filterRow, 8, [(7, 4, 1)]⟩,
   ⟨"FILTER_RESERVED_32_63", .filterRow, 8, [(7, 5, 1)]⟩,
   ⟨"FILTER_RESERVED_64_127", .filterRow, 8, [(7, 6, 1)]⟩,
   ⟨"FILTER_RESERVED_128_255", .filterRow, 8, [(7, 7, 1)]⟩,
   ⟨"HBLEN", .codeLen, 8, [(7, 4, 0)]⟩,
   ⟨"HBLEN_INVALID_16_31", .codeLen, 8, [(7, 4, 1)]⟩,
   ⟨"HBLEN_INVALID_32_63", .codeLen, 8, [(7, 5, 1)]⟩,
   ⟨"HBLEN_INVALID_64_127", .codeLen, 8, [(7, 6, 1)]⟩,
   ⟨"HBLEN_INVALID_128_255", .codeLen, 8, [(7, 7, 1)]⟩]

/-- The 128 rows of spec/opcode_table.json, in its order. -/
def opcodeTable : List Row :=
  rowsCommands ++ rowsFraming ++ rowsClSym ++ rowsLitLen ++ rowsDist ++ rowsRest

/-- The row a table word stands for (assumption 15). Words of different formats overlap in the table and carry no
format: the first row of that width whose match value IS the word is taken, and where there is none the first row
of that width whose fixed fields the word has. A row with no fixed fields is also found by the width 0. -/
def tableRow (nbits w : Nat) : Option Row :=
  match opcodeTable.find? fun r => r.nbits == nbits && r.matchValue == w && !r.fixed.isEmpty with
  | some r => some r
  | none => opcodeTable.find? fun r => (r.nbits == nbits || nbits == 0 && r.fixed.isEmpty) && r.fits w

/-- The instruction this decoder reads from a table word of `nbits` bits: `tableRow` names the format, and the word
is its value. -/
def decodeTableWord (nbits w : Nat) : Option Instr :=
  match tableRow nbits w with
  | some r => (decode r.format w).toOption
  | none => none

end Sys2Proof
end

