-- ==== Sys2Proof/Config.lean ====
section
/-! DEFINITION. What is fixed for one IUE (the parameters of R7), what the platform fixes (REG_BASE and which
addresses are ordinary memory), and the free values of the spec: constants with no body, so that no proof can
learn what they are. -/

namespace Sys2Proof.Config

/-- `FIRSTBITS`, the root index width of the Huffman lookup table (R7). -/
def firstBits : Nat := 9

/-- `MAXBITS`, the longest Huffman code (R7). -/
def maxBits : Nat := 15

/-- `NLITLEN`, the literal/length alphabet size (R7). -/
def nLitLen : Nat := 288

/-- `NDIST`, the distance alphabet size (R7). -/
def nDist : Nat := 32

/-- `NCLEN`, the code-length alphabet size (R7). -/
def nClen : Nat := 19

/-- The number of entries of the code-length sequence register `lens[0..319]` (R21). -/
def nLens : Nat := 320

/-- The `SRC_LEN` upper limit, 2^29 − 1 bytes (R7, R32). -/
def srcLenMax : Nat := 2 ^ 29 - 1

/-- The number of byte addresses, 2^ADDR_W (R7, R67). -/
def addrSpace : Nat := 2 ^ 32

/-- The size in bytes of the register block (R27). -/
def regBlockSize : Nat := 64

/-- The modulus of Adler-32 (R176). -/
def adlerMod : Nat := 65521

/-- One region of ordinary, backed memory: byte addresses `base` to `base + size − 1` (R66). -/
structure Region where
  base : Nat
  size : Nat
  deriving DecidableEq, Repr

/-- What the platform fixes around one IUE: `REG_BASE` (R27, an OPEN parameter of R7) and the regions of ordinary
memory (R66, R68), listed by ascending base. The state carries it, and no step changes it, so a statement about
every state is a statement about every platform. -/
structure Platform where
  regBase : Word
  ram : List Region
  deriving DecidableEq, Repr

/-- FREE VALUE `ABORT_POINT` (R285, U7): whether the `k`-th step boundary met after an abort request stops the
command (assumption 7). -/
opaque abortPoint : Nat → Bool

/-- FREE VALUE: what the `k`-th read of OUT_LEN, IN_BITPOS, ADLER, TRAILER or BLKHDR returns when it is made
while BUSY = 1 (R30, U1; assumption 8). -/
opaque busyRead : Nat → Word

/-- FREE VALUE: whether a reset that stops the engine at an `Emit` arrives while the byte is being written, or just
before (R311; assumption 9). -/
opaque resetInWrite : Nat → Bool

/-- FREE VALUE: the destination byte that was being written when reset arrived during a command (R311, U8;
assumption 9). -/
opaque resetByte : Nat → Byte

end Sys2Proof.Config
end

