-- ==== Sys2Proof/Machine/State.lean ====
section
/-! DEFINITION. The state of one IUE with its memory and its host, as plain data (spec 10_state.md, 20_memory.md,
60_exceptions.md), the state after reset (R43, R310), and the reasons a step can stop. INVENTORY.md lists every
field with its rule and its reset value. -/

namespace Sys2Proof.Machine

/-- The error codes of R270; 13 to 255 are never produced, so they have no constructor. -/
inductive ErrCode where
  | ok | truncated | invalidZlibHeader | invalidBlockType | invalidStoredBlock | invalidDynamicBlock
  | invalidHuffmanSymbol | distanceOutOfRange | checksumMismatch | invalidFilterType | outputOverflow
  | invalidParameter | aborted
  deriving DecidableEq, Repr

/-- The sixteen registers of the register block (R27), in offset order. -/
inductive Reg where
  | ctrl | status | errcode | srcAddr | srcLen | dstAddr | dstCap | outLen | inBitpos | adler | trailer | blkhdr
  | unfRowbytes | unfRows | unfBpp | hbNsym
  deriving DecidableEq, Repr

/-- Where the engine stands in the sequence of tokens (R105; the pseudocode of R170, R212, R220, R240 and R150):
what the next token is. `idle` is the engine with no command. -/
inductive Phase where
  | idle | zlibHeader | blockHeader | storedHeader | dynHeader | clSymbol | litLenSymbol | distSymbol | trailer
  | rowHeader | codeLength
  deriving DecidableEq, Repr

/-- The latched parameters `L` (R35), at the widths of their registers. -/
structure Latched where
  op : BitVec 4
  srcAddr : Word
  srcLen : Word
  dstAddr : Word
  dstCap : Word
  rowBytes : Word
  rows : Word
  bpp : BitVec 4
  nsym : BitVec 9
  deriving DecidableEq, Repr

/-- A Huffman code table (R40): for each symbol its code length (4 bits) and its code (15 bits). The lookup table of
R41 adds no state (assumption 13). -/
structure CodeTable where
  lengths : List (BitVec 4)
  codes : List (BitVec 15)
  deriving DecidableEq, Repr

/-- What the host does on the bus, and what the platform does to the IUE (R61, R108, R310). -/
inductive HostAct where
  /-- A bus write of the bytes, the first at the address. -/
  | write (addr : Word) (bytes : List Byte)
  /-- A bus read of so many bytes. -/
  | read (addr : Word) (size : Nat)
  /-- The host polls STATUS until DONE = 1 (R108, `WAIT DONE`). -/
  | waitDone
  /-- The platform asserts the reset input (R310). -/
  | reset
  deriving DecidableEq, Repr

/-- One pending action of the host: it takes place after `wait` more steps (assumption 1). -/
structure HostItem where
  wait : Nat
  act : HostAct
  deriving DecidableEq, Repr

/-- The memory's listed bytes, by rising address (the canonical form is `Memory.wf`, Machine/Ops.lean). -/
abbrev Memory := List Host.Cell

/-- The state. The groups are those of 10_state.md; the last two groups are the model's own surroundings of the
engine: the platform, the host, and the counter of free values. -/
structure State where
  -- The register block's own fields (R27, R28, R31 to R33, R37, R38) and the abort request (R127)
  op : BitVec 4
  ie : Bool
  busy : Bool
  done : Bool
  errf : Bool
  err : ErrCode
  abortReq : Bool
  -- The reset input (R310): asserted only inside the step in which reset arrives during a command (assumption 9)
  resetIn : Bool
  srcAddr : Word
  srcLen : Word
  dstAddr : Word
  dstCap : Word
  rowBytes : Word
  rows : Word
  bpp : BitVec 4
  nsym : BitVec 9
  -- The engine datapath (R21)
  p : Word
  out : Word
  s1 : BitVec 16
  s2 : BitVec 16
  trailer : Word
  bfinal : Bool
  btype : BitVec 2
  hdrvalid : Bool
  nblocks : BitVec 16
  lat : Latched
  lens : List (BitVec 4)
  -- The code tables (R40)
  tll : CodeTable
  td : CodeTable
  tcl : CodeTable
  thb : CodeTable
  -- The position in the sequence, and the local variables that live from one token to the next (R105)
  phase : Phase
  clCount : Nat
  hlit : Nat
  hdist : Nat
  matchLen : Nat
  row : Nat
  symIdx : Nat
  -- Memory (20_memory.md) and the platform (R66, R68)
  mem : Memory
  plat : Config.Platform
  -- The host agent (R14): its pending bus actions, and the bytes its last read returned
  host : List HostItem
  rdata : List Byte
  -- The model's own: how many free values have been drawn
  draws : Nat
  deriving DecidableEq, Repr

/-- Why a step stops with a fault. Each stands for a move that the spec gives a model no step for. -/
inductive Fault where
  /-- Raised by a host bus access (Step.lean) to the register block that is not an aligned 32-bit access to one
  register (R61, U2). Safe: the spec says the host is stuck. -/
  | registerAccess
  /-- Raised by a host memory access (Step.lean) that breaks duty 1 or 2 of R318 while BUSY = 1 (U3, U4). Unsafe
  only in the sense the spec states: nothing is said of a host that breaks a duty. -/
  | hostDuty
  /-- Raised by a START whose parameters pass R122 and whose input or destination range is not all ordinary memory
  (R66, U5: stuck; assumption 12), and by a host memory access outside ordinary memory (Step.lean), of which the
  spec says nothing: a stop by the model's choice (assumption 27). Safe. -/
  | unbackedMemory
  /-- Raised by a START whose parameters pass R122 and whose input or destination range includes the register block
  (R67, R318 duty 4, U5). Unsafe only in the sense the spec states: nothing is said of such a host. -/
  | registerBlockRange
  deriving DecidableEq, Repr

/-- Why a step is refused. -/
inductive Refusal where
  /-- An instruction of the opcode table without a meaning: raised by its arm of `exec` alone. Safe. -/
  | notModelled (mnemonic : String)
  /-- Raised by Step.lean in a state with BUSY = 1 and no command in progress, which no run reaches. Safe. -/
  | engineIdle
  /-- Raised by Step.lean when the fetched value names no instruction, which needs a code table with more symbols
  than its alphabet has and which no run reaches. Safe. -/
  | noSuchToken
  deriving DecidableEq, Repr

/-- `L` after reset: unspecified by R310, and never read before START writes it; zeros (assumption 5). -/
def Latched.reset : Latched :=
  { op := 0, srcAddr := 0, srcLen := 0, dstAddr := 0, dstCap := 0, rowBytes := 0, rows := 0, bpp := 0, nsym := 0 }

/-- A code table with no code for any of its `n` symbols; also every table's reset value (assumption 5). -/
def CodeTable.empty (n : Nat) : CodeTable :=
  { lengths := List.replicate n 0, codes := List.replicate n 0 }

/-- The platform of the state after reset (assumption 3): the register block at 0x40000000, and ordinary memory in
the whole address space around it. -/
def resetPlatform : Config.Platform := { regBase := 0x40000000, ram := [⟨0, 2 ^ 32⟩] }

/-- The machine right after reset (R43, R310), with no memory byte listed and a host that does nothing. -/
def State.reset : State :=
  { op := 0, ie := false, busy := false, done := false, errf := false, err := .ok, abortReq := false, resetIn := false,
    srcAddr := 0, srcLen := 0, dstAddr := 0, dstCap := 0, rowBytes := 0, rows := 0, bpp := 0, nsym := 0,
    p := 0, out := 0, s1 := 1, s2 := 0, trailer := 0, bfinal := false, btype := 0, hdrvalid := false, nblocks := 0,
    lat := Latched.reset, lens := List.replicate Config.nLens 0,
    tll := CodeTable.empty Config.nLitLen, td := CodeTable.empty Config.nDist, tcl := CodeTable.empty Config.nClen,
    thb := CodeTable.empty 0,
    phase := .idle, clCount := 0, hlit := 0, hdist := 0, matchLen := 0, row := 0, symIdx := 0,
    mem := [], plat := resetPlatform, host := [], rdata := [], draws := 0 }

end Sys2Proof.Machine
end

