-- ==== Sys2Proof/Machine/Flags.lean ====
section
/-! DEFINITION. The flags and the words computed from them: the STATUS, CTRL, ERRCODE and BLKHDR words, the interrupt
line, the running Adler-32 and the block-header latch (R26, R28, R31, R33, R36, R39, R171, R176, R270, R280). -/

namespace Sys2Proof.Machine

/-- `ERRCODE.CODE` of an error kind (R270). -/
def ErrCode.code : ErrCode → BitVec 8
  | .ok => 0
  | .truncated => 1
  | .invalidZlibHeader => 2
  | .invalidBlockType => 3
  | .invalidStoredBlock => 4
  | .invalidDynamicBlock => 5
  | .invalidHuffmanSymbol => 6
  | .distanceOutOfRange => 7
  | .checksumMismatch => 8
  | .invalidFilterType => 9
  | .outputOverflow => 10
  | .invalidParameter => 11
  | .aborted => 12

/-- `STATUS.ERR` of a completion: the code is not 0 (R273). -/
def ErrCode.isError (e : ErrCode) : Bool := e.code != 0

/-- The CTRL word a read returns: `OP << 4 | IE << 2`; START and ABORT read 0 (R28, R130). -/
def ctrlRead (s : State) : Word := BitVec.ofNat 32 (s.op.toNat * 16 + s.ie.toNat * 4)

/-- The STATUS word a read returns: `ERR << 2 | DONE << 1 | BUSY` (R31, R130). -/
def statusRead (s : State) : Word := BitVec.ofNat 32 (s.errf.toNat * 4 + s.done.toNat * 2 + s.busy.toNat)

/-- The ERRCODE word: CODE in bits 7:0 (R33). -/
def errcodeRead (s : State) : Word := s.err.code.zeroExtend 32

/-- The BLKHDR word (R39). -/
def blkhdrRead (s : State) : Word :=
  BitVec.ofNat 32 (s.nblocks.toNat * 65536 + s.hdrvalid.toNat * 8 + s.btype.toNat * 2 + s.bfinal.toNat)

/-- `ADLER = s2 << 16 | s1` (R36). -/
def adlerRead (s : State) : Word := s.s2 ++ s.s1

/-- The interrupt line: `irq = CTRL.IE & STATUS.DONE` (R280). -/
def State.irq (s : State) : Bool := s.ie && s.done

/-- `s1` after one more output byte (R175). -/
def adlerS1 (s1 : BitVec 16) (b : Byte) : BitVec 16 := BitVec.ofNat 16 ((s1.toNat + b.toNat) % Config.adlerMod)

/-- `s2` after one more output byte, from the new `s1` (R175). -/
def adlerS2 (s2 newS1 : BitVec 16) : BitVec 16 := BitVec.ofNat 16 ((s2.toNat + newS1.toNat) % Config.adlerMod)

/-- The block-header latch of R171: BFINAL, BTYPE, VALID, and COUNT saturating at 0xFFFF. -/
def State.latchHeader (final : Bool) (type : BitVec 2) (s : State) : State :=
  { s with bfinal := final, btype := type, hdrvalid := true,
           nblocks := BitVec.ofNat 16 (min (s.nblocks.toNat + 1) 0xFFFF) }

/-- The STATUS write: DONE and ERR are cleared by a 1, nothing else changes (R31, R128). -/
def State.statusClear (done err : Bool) (s : State) : State :=
  { s with done := s.done && !done, errf := s.errf && !err }

end Sys2Proof.Machine
end

