-- ==== Sys2Proof/Machine/Operands.lean ====
section
/-! DEFINITION. Operand assembly: the length, distance and code-length-order tables, the fixed code lengths and the
predictors of the filters (R90 to R95, R201, R240, R243). -/

namespace Sys2Proof.Machine

/-- `LENGTHBASE`, indexed by symbol − 257 (R90). -/
def lengthBase : List Nat :=
  [3, 4, 5, 6, 7, 8, 9, 10, 11, 13, 15, 17, 19, 23, 27, 31] ++
  [35, 43, 51, 59, 67, 83, 99, 115, 131, 163, 195, 227, 258]

/-- `LENGTHEXTRA`, indexed by symbol − 257 (R90). -/
def lengthExtra : List Nat :=
  [0, 0, 0, 0, 0, 0, 0, 0, 1, 1, 1, 1, 2, 2, 2, 2] ++ [3, 3, 3, 3, 4, 4, 4, 4, 5, 5, 5, 5, 0]

/-- `DISTANCEBASE`, indexed by the distance symbol (R91). -/
def distanceBase : List Nat :=
  [1, 2, 3, 4, 5, 7, 9, 13, 17, 25, 33, 49, 65, 97, 129, 193] ++
  [257, 385, 513, 769, 1025, 1537, 2049, 3073, 4097, 6145, 8193, 12289, 16385, 24577]

/-- `DISTANCEEXTRA`, indexed by the distance symbol (R91). -/
def distanceExtra : List Nat :=
  [0, 0, 0, 0, 1, 1, 2, 2, 3, 3, 4, 4, 5, 5, 6, 6] ++ [7, 7, 8, 8, 9, 9, 10, 10, 11, 11, 12, 12, 13, 13]

/-- The base and the extra-bit count of length symbol 257 + `k` (R90). -/
def lengthBaseOf (k : Nat) : Nat := lengthBase.getD k 0

/-- See `lengthBaseOf`. -/
def lengthExtraOf (k : Nat) : Nat := lengthExtra.getD k 0

/-- The base and the extra-bit count of distance symbol `d` (R91). -/
def distanceBaseOf (d : Nat) : Nat := distanceBase.getD d 0

/-- See `distanceBaseOf`. -/
def distanceExtraOf (d : Nat) : Nat := distanceExtra.getD d 0

/-- `CLORDER`: the symbol whose length the i-th 3-bit value is (R92). -/
def clOrder : List Nat := [16, 17, 18, 0, 8, 7, 9, 6, 10, 5, 11, 4, 12, 3, 13, 2, 14, 1, 15]

/-- `FIXEDLL` (R94, R201). The canonical code of these lengths gives symbol 256 the code `0000000` of R94 and R222, not
the `0b0110000` of R11's example (assumption 25). -/
def fixedLitLen : List (BitVec 4) :=
  List.replicate 144 8 ++ List.replicate 112 9 ++ List.replicate 24 7 ++ List.replicate 8 8

/-- `FIXEDD` (R95, R201). -/
def fixedDist : List (BitVec 4) := List.replicate 32 5

/-- The code-length-code lengths: the i-th value read is the length of symbol `CLORDER[i]`, and a symbol with no value
has length 0 (R92, R211). -/
def codeLengthLengths (values : List Nat) : List (BitVec 4) :=
  (clOrder.zip values).foldl (fun cl (sym, v) => cl.set sym (BitVec.ofNat 4 v)) (List.replicate Config.nClen 0)

/-- The Paeth predictor, on integers with no wraparound (R243). -/
def paeth (a b c : Nat) : Nat :=
  let pp : Int := (a : Int) + b - c
  let pa := (pp - a).natAbs
  let pb := (pp - b).natAbs
  let pc := (pp - c).natAbs
  if pa ≤ pb ∧ pa ≤ pc then a else if pb ≤ pc then b else c

/-- `Pred(0, a, b, c)` (R240, R244). -/
def predNone (_ _ _ : Nat) : Nat := 0

/-- `Pred(1, a, b, c)` (R240, R245). -/
def predSub (a _ _ : Nat) : Nat := a

/-- `Pred(2, a, b, c)` (R240, R246). -/
def predUp (_ b _ : Nat) : Nat := b

/-- `Pred(3, a, b, c)`: the sum is not wrapped before it is halved (R240, R247). -/
def predAverage (a b _ : Nat) : Nat := (a + b) / 2

/-- `Pred(4, a, b, c)` (R240, R248). -/
def predPaeth (a b c : Nat) : Nat := paeth a b c

/-- `(x + Pred) mod 256` (R240). -/
def reconstruct (x pred : Nat) : Byte := BitVec.ofNat 8 (x + pred)

end Sys2Proof.Machine
end

