-- ==== Sys2Proof/Machine/Huffman.lean ====
section
/-! DEFINITION. Canonical Huffman codes: the Kraft sum, the construction of the codes, the search for a code
(R143 to R145, R149, R152), and the two-level lookup table an implementation builds from them (R146, R147). -/

namespace Sys2Proof.Machine

/-- `blCount[len]`: how many symbols have the code length `len`; symbols of length 0 are not counted (R144). -/
def blCount (lengths : List (BitVec 4)) (len : Nat) : Nat :=
  if len = 0 then 0 else lengths.countP fun l => l.toNat == len

/-- `nextCode[len]` before any code is assigned: `nextCode[1] = 0`, and
`nextCode[len] = (nextCode[len−1] + blCount[len−1]) << 1` (R144). Index 0 is not used. -/
def firstCode (lengths : List (BitVec 4)) : Nat → Nat
  | 0 => 0
  | len + 1 => (firstCode lengths len + blCount lengths len) * 2

/-- The assignment loop of R144, in ascending symbol order: each symbol takes `nextCode` of its length and steps it;
a symbol of length 0 gets 0. -/
def assignCodes : List (BitVec 4) → List Nat → List Nat
  | [], _ => []
  | l :: rest, next =>
    if l.toNat = 0 then 0 :: assignCodes rest next
    else next.getD l.toNat 0 :: assignCodes rest (next.set l.toNat (next.getD l.toNat 0 + 1))

/-- `Canonical(lengths)` (R144). -/
def canonical (lengths : List (BitVec 4)) : List Nat :=
  assignCodes lengths ((List.range (Config.maxBits + 1)).map (firstCode lengths))

/-- The Kraft sum `K`, the sum of `2^(15 − lengths[s])` over the symbols with a code (R145). -/
def kraft : List (BitVec 4) → Nat
  | [] => 0
  | l :: rest => (if l.toNat = 0 then 0 else 2 ^ (Config.maxBits - l.toNat)) + kraft rest

/-- Over-subscribed: `K > 2^15` (R145). -/
def overSubscribed (lengths : List (BitVec 4)) : Bool := 2 ^ Config.maxBits < kraft lengths

/-- The code table of a length set (R40, R144). -/
def CodeTable.build (lengths : List (BitVec 4)) : CodeTable :=
  { lengths := lengths, codes := (canonical lengths).map (BitVec.ofNat 15) }

/-- The search of R143 through the symbols from `sym` upwards: the first with code length `len` and code `c`. -/
def findCode : List (BitVec 4) → List (BitVec 15) → (sym len c : Nat) → Option Nat
  | l :: ls, k :: ks, sym, len, c =>
    if l.toNat = len ∧ k.toNat = c then some sym else findCode ls ks (sym + 1) len c
  | _, _, _, _, _ => none

/-- The symbol of a table with code length `len` and code value `c` (R143). -/
def CodeTable.symbol (t : CodeTable) (len c : Nat) : Option Nat := findCode t.lengths t.codes 0 len c

/-- The loop of R143 over the input bits `bit 0`, `bit 1`, …: `fuel` more lengths are tried, `len` bits have been
taken, and their value, first bit most significant, is `c`. It gives the symbol and its code length. -/
def matchCode (t : CodeTable) (bit : Nat → Nat) : (fuel len c : Nat) → Option (Nat × Nat)
  | 0, _, _ => none
  | fuel + 1, len, c =>
    match t.symbol (len + 1) (2 * c + bit len) with
    | some sym => some (sym, len + 1)
    | none => matchCode t bit fuel (len + 1) (2 * c + bit len)

/-- The code a bit sequence begins with, trying the lengths 1 to 15 (R143). -/
def CodeTable.decode (t : CodeTable) (bit : Nat → Nat) : Option (Nat × Nat) := matchCode t bit Config.maxBits 0 0

/-! ### The lookup table (R146, R147)

An implementation's cache of a code table. It is a function of the table, so it is no state of its own (R41); the
entries are given by their index, in place of the writes that fill them. -/

/-- `R(v, k)`: the low `k` bits of `v`, reversed (R146). -/
def reverseBits : (v k : Nat) → Nat
  | _, 0 => 0
  | v, k + 1 => v % 2 * 2 ^ k + reverseBits (v / 2) k

/-- The value of the first `n` bits of a sequence, the first bit least significant (R141). -/
def bitsValue (bit : Nat → Nat) : Nat → Nat
  | 0 => 0
  | n + 1 => bitsValue bit n + bit n * 2 ^ n

/-- A root entry (R146): no code, a symbol with its code length, or a secondary region for the codes that share a
9-bit front, with the greatest of their lengths. -/
inductive RootEntry where
  | invalid
  | direct (len sym : Nat)
  | region (maxLen front : Nat)
  deriving DecidableEq, Repr

/-- The symbols of a table with their lengths and codes, in symbol order. -/
def CodeTable.entries (t : CodeTable) : List (Nat × Nat × Nat) :=
  (t.lengths.zip t.codes).zipIdx.map fun ((l, k), sym) => (sym, l.toNat, k.toNat)

/-- The greatest length of the codes longer than 9 bits whose first 9 bits are `front`, or 0 where there is none. -/
def regionLength (t : CodeTable) (front : Nat) : Nat :=
  (t.entries.map fun (_, len, code) =>
    if Config.firstBits < len ∧ code / 2 ^ (len - Config.firstBits) = front then len else 0).foldl max 0

/-- The root entry at index `v`, the next 9 bits with the first least significant (R146). -/
def rootEntry (t : CodeTable) (v : Nat) : RootEntry :=
  match t.entries.find? fun (_, len, code) =>
      0 < len && len ≤ Config.firstBits && reverseBits code len == v % 2 ^ len with
  | some (sym, len, _) => .direct len sym
  | none =>
    let front := reverseBits v Config.firstBits
    if regionLength t front = 0 then .invalid else .region (regionLength t front) front

/-- The secondary entry of the region of `front` at index `w`, the bits after the first 9 (R146). -/
def regionEntry (t : CodeTable) (front w : Nat) : Option (Nat × Nat) :=
  match t.entries.find? fun (_, len, code) =>
      Config.firstBits < len && code / 2 ^ (len - Config.firstBits) == front &&
      reverseBits code (len - Config.firstBits) == w % 2 ^ (len - Config.firstBits) with
  | some (sym, len, _) => some (sym, len)
  | none => none

/-- The decode of R147 with the lookup table: the symbol and the length of its code. -/
def CodeTable.lookup (t : CodeTable) (bit : Nat → Nat) : Option (Nat × Nat) :=
  match rootEntry t (bitsValue bit Config.firstBits) with
  | .invalid => none
  | .direct len sym => some (sym, len)
  | .region maxLen front =>
    regionEntry t front (bitsValue (fun i => bit (Config.firstBits + i)) (maxLen - Config.firstBits))

end Sys2Proof.Machine
end

