-- ==== Sys2Proof/Machine/Ops.lean ====
section
/-! DEFINITION. The operations every meaning is written over: memory, the engine's sequential steps and their step
boundaries, the bit cursor (R140 to R143), the output (R175 to R177), raising an error and completing a command
(R272, R273), starting one (R34, R121, R122), the register block (R28 to R39), and reset (R310, R311). -/

namespace Sys2Proof.Machine

/-! ### Memory (R62, R66, R67) -/

/-- What an address with no listed byte reads as: the spec gives no contents for memory after power-on
(assumption 4). -/
def unlistedByte : Byte := 0

/-- `MemRead(a, 1)` (R9, R62). -/
def memRead : Memory → Nat → Byte
  | [], _ => unlistedByte
  | (x, b) :: rest, a => if x = a then b else memRead rest a

/-- `MemWrite(a, 1, v)` (R9, R62). The list keeps its canonical form. -/
def memWrite : Memory → Nat → Byte → Memory
  | [], a, v => if v = unlistedByte then [] else [(a, v)]
  | (x, b) :: rest, a, v =>
    if a < x then (if v = unlistedByte then (x, b) :: rest else (a, v) :: (x, b) :: rest)
    else if a = x then (if v = unlistedByte then rest else (a, v) :: rest)
    else (x, b) :: memWrite rest a v

/-- Write bytes one after another, the first at the address. -/
def memWriteBytes : Memory → Nat → List Byte → Memory
  | m, _, [] => m
  | m, a, v :: rest => memWriteBytes (memWrite m a v) (a + 1) rest

/-- Read so many bytes, the first at the address. -/
def memReadBytes (m : Memory) (a n : Nat) : List Byte := (List.range n).map fun k => memRead m (a + k)

/-- The canonical form of a memory: addresses strictly rising and inside the address space, and no entry that an
unlisted address reads as. -/
abbrev Memory.wf (m : Memory) : Prop :=
  m.Pairwise (fun c d => c.1 < d.1) ∧ ∀ c ∈ m, c.1 < Config.addrSpace ∧ c.2 ≠ unlistedByte

/-- Input byte `S[k]` (R63). -/
def inputByte (s : State) (k : Nat) : Byte := memRead s.mem (s.lat.srcAddr + BitVec.ofNat 32 k).toNat

/-- The address of output byte `k` (R64). -/
def destAddr (s : State) (k : Nat) : Nat := (s.lat.dstAddr + BitVec.ofNat 32 k).toNat

/-- The output byte `k` as it stands in the destination (R64, R177). -/
def outputByte (s : State) (k : Nat) : Byte := memRead s.mem (destAddr s k)

/-! ### Sequential steps, and the abort draw at each step boundary (R9, R271, R272, R285) -/

/-- How a piece of a command's pseudocode ends: with a value, or with `raise E` (R9, R272). -/
inductive Res (α : Type) where
  | ok (a : α) (s : State)
  | raised (e : ErrCode) (s : State)
  deriving Repr

/-- A piece of a command's pseudocode. -/
abbrev Act (α : Type) := State → Res α

/-- The piece that does nothing. -/
def Act.pure {α : Type} (a : α) : Act α := fun s => .ok a s

/-- One piece after another; a raise ends both (R272). -/
def Act.bind {α β : Type} (m : Act α) (f : α → Act β) : Act β := fun s =>
  match m s with
  | .ok a s' => f a s'
  | .raised e s' => .raised e s'

/-- `raise E` (R272). -/
def raiseErr {α : Type} (e : ErrCode) : Act α := fun s => .raised e s

/-- A change of the engine's own registers. -/
def engineSet (f : State → State) : Act Unit := fun s => .ok () (f s)

/-- One free value has been drawn. -/
def State.drawn (s : State) : State := { s with draws := s.draws + 1 }

/-- The step boundary before a primitive: while an abort is requested, the free value `ABORT_POINT` decides whether
the command stops here with `Aborted` (R285, assumption 7). A boundary lies between two primitives, so there is none
before the first of a command: that is a `ReadBits(8)`, and `p` is 0 until it returns (assumption 24). -/
def boundary : Act Unit := fun s =>
  if s.abortReq && s.p != 0 then
    if Config.abortPoint s.draws then .raised .aborted s.drawn else .ok () s.drawn
  else .ok () s

/-! ### The bit cursor (R140 to R143) -/

/-- `8 · L.SRC_LEN`, the number of input bits. -/
def inputBits (s : State) : Nat := 8 * s.lat.srcLen.toNat

/-- `Bit(q)` (R140): a bit past the end is 0, and no memory is read for it. -/
def peekBit (s : State) (q : Nat) : Nat :=
  if q < inputBits s then (inputByte s (q / 8)).toNat / 2 ^ (q % 8) % 2 else 0

/-- The next `n` bits as a number, the first read least significant (R141). -/
def peekBits (s : State) (n : Nat) : Nat := bitsValue (fun i => peekBit s (s.p.toNat + i)) n

/-- The bit cursor moved to bit `q` (R23). -/
def State.setP (q : Nat) (s : State) : State := { s with p := BitVec.ofNat 32 q }

/-- `ReadBits(n)` (R141). -/
def readBits (n : Nat) : Act Nat := boundary.bind fun _ s =>
  if inputBits s < s.p.toNat + n then .raised .truncated s
  else .ok (peekBits s n) (s.setP (s.p.toNat + n))

/-- `AlignToByte()` (R142). -/
def alignToByte : Act Unit := boundary.bind fun _ s => .ok () (s.setP (8 * ((s.p.toNat + 7) / 8)))

/-- The end of a decode: the symbol found with its code length, or none; the input bound is checked before `p` moves
(R143, R147). -/
def takeSymbol (found : Option (Nat × Nat)) : Act Nat := fun s =>
  match found with
  | none => .raised .invalidHuffmanSymbol s
  | some (sym, len) =>
    if inputBits s < s.p.toNat + len then .raised .truncated s
    else .ok sym (s.setP (s.p.toNat + len))

/-- `DecodeSym(T)` (R143). -/
def decodeSym (t : CodeTable) : Act Nat := boundary.bind fun _ s =>
  takeSymbol (t.decode fun i => peekBit s (s.p.toNat + i)) s

/-- `DecodeSym(T)` by the lookup table (R147); the engine of the model uses R143 alone, as R148 allows. -/
def tableSym (t : CodeTable) : Act Nat := boundary.bind fun _ s =>
  takeSymbol (t.lookup fun i => peekBit s (s.p.toNat + i)) s

/-- `k` fields of `n` bits each. -/
def readFields (n : Nat) : Nat → Act (List Nat)
  | 0 => .pure []
  | k + 1 => (readBits n).bind fun v => (readFields n k).bind fun rest => .pure (v :: rest)

/-! ### The output (R175 to R177) -/

/-- The state after one output byte is written (R175). -/
def State.emitted (b : Byte) (s : State) : State :=
  { s with mem := memWrite s.mem (destAddr s s.out.toNat) b, s1 := adlerS1 s.s1 b,
           s2 := adlerS2 s.s2 (adlerS1 s.s1 b), out := BitVec.ofNat 32 (s.out.toNat + 1) }

/-- The engine was stopped at an `Emit`. A reset that stops it there may arrive while the byte is being written, which
then has a free value (R311, U8, assumption 9). An abort stops before the write. -/
def State.stoppedAtEmit (s : State) : State :=
  if s.resetIn && decide (s.out.toNat < s.lat.dstCap.toNat) && Config.resetInWrite s.draws then
    { s with mem := memWrite s.mem (destAddr s s.out.toNat) (Config.resetByte s.draws), draws := s.draws + 1 }
  else s

/-- The step boundary before an `Emit`. -/
def emitBoundary : Act Unit := fun s =>
  match boundary s with
  | .ok _ s' => .ok () s'
  | .raised e s' => .raised e s'.stoppedAtEmit

/-- `Emit(b)` (R175). -/
def emit (b : Byte) : Act Unit := emitBoundary.bind fun _ s =>
  if s.lat.dstCap.toNat ≤ s.out.toNat then .raised .outputOverflow s else .ok () (s.emitted b)

/-- `OutByte(k)` (R177). -/
def outByte (k : Nat) : Act Byte := boundary.bind fun _ s => .ok (outputByte s k) s

/-- Emit bytes one after another. -/
def emitBytes : List Byte → Act Unit
  | [] => .pure ()
  | b :: rest => (emit b).bind fun _ => emitBytes rest

/-- The four bytes of a 32-bit word, least significant first (R60 (a), (h)). -/
def wordBytes (w : Word) : List Byte := (List.range 4).map fun k => BitVec.ofNat 8 (w.toNat / 2 ^ (8 * k))

/-- The 32-bit word of four bytes, least significant first (R60 (a)). -/
def wordOfBytes (bytes : List Byte) : Word :=
  BitVec.ofNat 32 (bytes.foldr (fun b n => b.toNat + 256 * n) 0)

/-- The raw data of a stored block: `n` bytes from the input to the output (R172). -/
def copyStored : Nat → Act Unit
  | 0 => .pure ()
  | n + 1 => (readBits 8).bind fun b => (emit (BitVec.ofNat 8 b)).bind fun _ => copyStored n

/-- The LZ77 copy: `n` bytes, each from `dist` bytes before the current output position (R231). -/
def copyMatch (dist : Nat) : Nat → Act Unit
  | 0 => .pure ()
  | n + 1 => fun s =>
    ((outByte (s.out.toNat - dist)).bind fun b => (emit b).bind fun _ => copyMatch dist n) s

/-! ### The position in the sequence (R105, R170) -/

/-- The engine waits for another token (R105). -/
def State.setPhase (ph : Phase) (s : State) : State := { s with phase := ph }

/-- The end of a block: the trailer after the final block, otherwise the next block header (R170). -/
def State.blockEnd (s : State) : State :=
  s.setPhase (if s.bfinal then .trailer else .blockHeader)

/-! ### Completing a command, and raising an error (R270 to R274) -/

/-- `Complete(E)` (R273). The engine is idle after it. -/
def State.complete (e : ErrCode) (s : State) : State :=
  { s with err := e, busy := false, errf := e.isError, done := true, abortReq := false, phase := .idle }

/-- The outcome of a step that can answer a next state, a fault or a refusal. -/
abbrev Out := Host.Outcome State Fault Refusal

/-- How a token ends: where it raised `E`, the command completes with `E` at once, keeping everything done before
(R121, R272, R274). This is the one place an error is taken. -/
def tokenEnd (r : Res Unit) : Out :=
  match r with
  | .ok _ s => .next s
  | .raised e s => .next (s.complete e)

/-! ### Starting a command (R34, R35, R120 to R126) -/

/-- `L` at START: copies of the parameter registers (R35). -/
def latchParameters (op : BitVec 4) (s : State) : Latched :=
  { op := op, srcAddr := s.srcAddr, srcLen := s.srcLen, dstAddr := s.dstAddr, dstCap := s.dstCap,
    rowBytes := s.rowBytes, rows := s.rows, bpp := s.bpp, nsym := s.nsym }

/-- Steps 1 to 5 of START (R34). -/
def State.started (op : BitVec 4) (ie : Bool) (s : State) : State :=
  { s with op := op, ie := ie, done := false, errf := false, err := .ok, p := 0, out := 0, s1 := 1, s2 := 0,
           trailer := 0, bfinal := false, btype := 0, hdrvalid := false, nblocks := 0,
           lat := latchParameters op s, busy := true }

/-- The tests of R122, by the name the pseudocode gives them. -/
inductive ParamTest where
  | op | srcLen | srcWrap | dstWrap | overlap | bpp | geometry | nsym
  deriving DecidableEq, Repr

/-- Two address ranges, both non-empty, that share a byte. -/
def rangesMeet (a n b m : Nat) : Bool := 0 < n && 0 < m && a < b + m && b < a + n

/-- `CheckParameters()` (R122): the first test that holds, in order. -/
def checkParameters (l : Latched) : Option ParamTest :=
  if l.op.toNat ∉ [1, 2, 3] then some .op
  else if Config.srcLenMax < l.srcLen.toNat then some .srcLen
  else if Config.addrSpace < l.srcAddr.toNat + l.srcLen.toNat then some .srcWrap
  else if Config.addrSpace < l.dstAddr.toNat + l.dstCap.toNat then some .dstWrap
  else if rangesMeet l.srcAddr.toNat l.srcLen.toNat l.dstAddr.toNat l.dstCap.toNat then some .overlap
  else if l.op.toNat = 2 ∧ ¬(1 ≤ l.bpp.toNat ∧ l.bpp.toNat ≤ 8) then some .bpp
  else if l.op.toNat = 2 ∧ (l.rows.toNat = 0 ∨ l.rowBytes.toNat = 0) then some .geometry
  else if l.op.toNat = 3 ∧ ¬(1 ≤ l.nsym.toNat ∧ l.nsym.toNat ≤ 288) then some .nsym
  else none

/-- Whether regions in ascending order back every byte from `pos` up to `stop`. -/
def backedFrom : List Config.Region → (pos stop : Nat) → Bool
  | [], pos, stop => stop ≤ pos
  | r :: rest, pos, stop =>
    backedFrom rest (if r.base ≤ pos ∧ pos < r.base + r.size then r.base + r.size else pos) stop

/-- Whether the platform backs the `n` bytes at `a` with ordinary memory (R66). -/
def backed (pl : Config.Platform) (a n : Nat) : Bool :=
  a + n ≤ Config.addrSpace && backedFrom pl.ram a (a + n)

/-- Why the `n` bytes at `a` are not all ordinary memory (R66, R67). -/
def rangeFault (pl : Config.Platform) (a n : Nat) : Option Fault :=
  if rangesMeet a n pl.regBase.toNat Config.regBlockSize then some .registerBlockRange
  else if backed pl a n then none
  else some .unbackedMemory

/-- Duty 4 of R318 for a command's two ranges (assumption 12). -/
def latchFault (pl : Config.Platform) (l : Latched) : Option Fault :=
  match rangeFault pl l.srcAddr.toNat l.srcLen.toNat with
  | some f => some f
  | none => rangeFault pl l.dstAddr.toNat l.dstCap.toNat

/-- The first token a command waits for (R123 to R125). -/
def firstPhase (op : BitVec 4) : Phase :=
  if op.toNat = 1 then .zlibHeader else if op.toNat = 2 then .rowHeader else .codeLength

/-- Entering the body of a command: the position in the sequence, and the counters of its loops at 0 (R121, R150,
R240). -/
def State.entered (ph : Phase) (s : State) : State :=
  { s with phase := ph, row := 0, symIdx := 0 }

/-- A START while idle (R34, R121, R122): parameters that fail a test complete the command at once (assumption 18); ranges that are
not ordinary memory give no step. -/
def startCommand (op : BitVec 4) (ie : Bool) (s : State) : Out :=
  let s1 := s.started op ie
  match checkParameters s1.lat with
  | some _ => tokenEnd (.raised .invalidParameter s1)
  | none =>
    match latchFault s1.plat s1.lat with
    | some f => .fault f
    | none => .next (s1.entered (firstPhase op))

/-- A CTRL write (R28, R127): while busy it stores IE and honours ABORT; while idle it stores OP and IE and honours
START. -/
def ctrlWrite (start abort ie : Bool) (op : BitVec 4) (s : State) : Out :=
  if s.busy then .next { s with ie := ie, abortReq := s.abortReq || abort }
  else if start then startCommand op ie s
  else .next { s with op := op, ie := ie }

/-- A CTRL write that sets neither START nor ABORT, from its word (R28). -/
def ctrlStore (w : Word) (s : State) : Out :=
  ctrlWrite false false (bitAt w.toNat 2) (BitVec.ofNat 4 (w.toNat / 16)) s

/-! ### The register block (R27 to R39, R61, R129, R130) -/

/-- The registers in offset order (R27). -/
def registers : List Reg :=
  [.ctrl, .status, .errcode, .srcAddr, .srcLen, .dstAddr, .dstCap, .outLen] ++
  [.inBitpos, .adler, .trailer, .blkhdr, .unfRowbytes, .unfRows, .unfBpp, .hbNsym]

/-- The register at a byte offset of the block that is a multiple of 4 (R27). The alignment of R61 is taken of the offset
from REG_BASE, which the spec leaves open (assumption 26). -/
def regAt (offset : Nat) : Option Reg := if offset % 4 = 0 then registers[offset / 4]? else none

/-- The byte offset of a register (R27). -/
def Reg.offset (r : Reg) : Nat := 4 * registers.idxOf r

/-- A write of a register other than CTRL and STATUS (R129): a parameter register takes the value while idle, its
reserved bits dropped; every other write is ignored. -/
def paramWrite (r : Reg) (w : Word) (s : State) : State :=
  if s.busy then s
  else match r with
    | .srcAddr => { s with srcAddr := w }
    | .srcLen => { s with srcLen := w }
    | .dstAddr => { s with dstAddr := w }
    | .dstCap => { s with dstCap := w }
    | .unfRowbytes => { s with rowBytes := w }
    | .unfRows => { s with rows := w }
    | .unfBpp => { s with bpp := BitVec.ofNat 4 w.toNat }
    | .hbNsym => { s with nsym := BitVec.ofNat 9 w.toNat }
    | .ctrl | .status | .errcode | .outLen | .inBitpos | .adler | .trailer | .blkhdr => s

/-- The value of a register while it is exact (R30, R36, R39, R130). -/
def regValue (r : Reg) (s : State) : Word :=
  match r with
  | .ctrl => ctrlRead s
  | .status => statusRead s
  | .errcode => errcodeRead s
  | .srcAddr => s.srcAddr
  | .srcLen => s.srcLen
  | .dstAddr => s.dstAddr
  | .dstCap => s.dstCap
  | .outLen => s.out
  | .inBitpos => s.p
  | .adler => adlerRead s
  | .trailer => s.trailer
  | .blkhdr => blkhdrRead s
  | .unfRowbytes => s.rowBytes
  | .unfRows => s.rows
  | .unfBpp => s.bpp.zeroExtend 32
  | .hbNsym => s.nsym.zeroExtend 32

/-- The registers that expose the datapath (R30). -/
def Reg.isResult : Reg → Bool
  | .outLen | .inBitpos | .adler | .trailer | .blkhdr => true
  | .ctrl | .status | .errcode | .srcAddr | .srcLen | .dstAddr | .dstCap | .unfRowbytes | .unfRows | .unfBpp
  | .hbNsym => false

/-- The bits of a result register that are not reserved (R36, R39). -/
def Reg.valueBits : Reg → Word
  | .blkhdr => 0xFFFF000F
  | .ctrl | .status | .errcode | .srcAddr | .srcLen | .dstAddr | .dstCap | .outLen | .inBitpos | .adler | .trailer
  | .unfRowbytes | .unfRows | .unfBpp | .hbNsym => 0xFFFFFFFF

/-- A register read (R30, R130): a result register read while busy gives a free value with its reserved bits 0 (U1,
assumption 8), every other read the register's value. -/
def regRead (r : Reg) (s : State) : Word × State :=
  if s.busy && r.isResult then (Config.busyRead s.draws &&& r.valueBits, s.drawn) else (regValue r s, s)

/-! ### The bus and the host's duties (R61, R66, R67, R318) -/

/-- What a bus access of `n` bytes at an address reaches. -/
inductive Target where
  | register (r : Reg)
  | memory
  | stuck (f : Fault)
  deriving DecidableEq, Repr

/-- Only an aligned access of four bytes reaches a register (R61, assumption 10); every other address is memory, if the
platform backs it. An address that it does not back stops the host, by the model's choice (assumption 27). For a
REG_BASE above 2^32 - 64 the block does not wrap: the registers past the top of the address space cannot be reached
(assumption 26). -/
def busTarget (pl : Config.Platform) (a n : Nat) : Target :=
  if rangesMeet a n pl.regBase.toNat Config.regBlockSize then
    if n = 4 ∧ pl.regBase.toNat ≤ a then
      match regAt (a - pl.regBase.toNat) with
      | some r => .register r
      | none => .stuck .registerAccess
    else .stuck .registerAccess
  else if backed pl a n then .memory
  else .stuck .unbackedMemory

/-- Whether `n` bytes at `a` meet the running command's input range. -/
def meetsInput (s : State) (a n : Nat) : Bool := rangesMeet a n s.lat.srcAddr.toNat s.lat.srcLen.toNat

/-- Whether `n` bytes at `a` meet the running command's destination range. -/
def meetsDest (s : State) (a n : Nat) : Bool := rangesMeet a n s.lat.dstAddr.toNat s.lat.dstCap.toNat

/-- A host write to memory. Duties 1 and 2 of R318: while busy, not to the input nor to the destination (assumption
11). -/
def hostMemWrite (a : Nat) (bytes : List Byte) (s : State) : Out :=
  if s.busy && (meetsInput s a bytes.length || meetsDest s a bytes.length) then .fault .hostDuty
  else .next { s with mem := memWriteBytes s.mem a bytes }

/-- A host read of memory. Duty 2 of R318: while busy, not of the destination (assumption 11). -/
def hostMemRead (a n : Nat) (s : State) : Out :=
  if s.busy && meetsDest s a n then .fault .hostDuty
  else .next { s with rdata := memReadBytes s.mem a n }

/-- A register read by the host, whose data goes out on the bus little-endian (R60 (a), R130). -/
def hostRegRead (r : Reg) (s : State) : State :=
  { (regRead r s).2 with rdata := wordBytes (regRead r s).1 }

/-! ### Reset (R43, R310, R311) -/

/-- Every register of the IUE at its reset value; memory, the platform and the host are outside the IUE and keep
theirs (R310). -/
def deviceReset (s : State) : State :=
  { State.reset with mem := s.mem, plat := s.plat, host := s.host, rdata := s.rdata, draws := s.draws }

end Sys2Proof.Machine
end

