-- ==== Sys2Proof/Machine/Assembler.lean ====
section
/-! DEFINITION. The token notation's bits (R106): the bits of a token in stream order, from its value in its format and
the code tables in force, and their packing into bytes least significant bit first (R60 (b)). Also the placing of one
token as the next thing the engine fetches. -/

namespace Sys2Proof.Machine

/-- The low `n` bits of a value, least significant first (R106). -/
def lsbBits (v : Nat) : Nat → List Bool
  | 0 => []
  | n + 1 => bitAt v 0 :: lsbBits (v / 2) n

/-- The low `n` bits of a value, most significant first, as a Huffman code is sent (R11, R60 (d)). -/
def msbBits (v n : Nat) : List Bool := (lsbBits v n).reverse

/-- The code of a symbol (R106). -/
def symbolBits (t : CodeTable) (sym : Nat) : List Bool :=
  msbBits (t.codes.getD sym 0).toNat (t.lengths.getD sym 0).toNat

/-- The bits of a token, after the alignment that a stored-block header and the trailer begin with (R106). CTRL and
STATUS words are no input bits. -/
def tokenBits (tcl tll td : CodeTable) (f : Format) (v : Nat) : List Bool :=
  match f with
  | .cmd => []
  | .status => []
  | .zhdr => lsbBits (v / 256) 8 ++ lsbBits v 8
  | .bhdr => lsbBits v 3
  | .stored => lsbBits v 32
  | .dynHdr => lsbBits v 14
  | .clSym => symbolBits tcl v
  | .litLen => symbolBits tll v
  | .dist => symbolBits td v
  | .trailer => lsbBits (v / 2 ^ 24) 8 ++ lsbBits (v / 2 ^ 16) 8 ++ lsbBits (v / 2 ^ 8) 8 ++ lsbBits v 8
  | .filterRow => lsbBits v 8
  | .codeLen => lsbBits v 8

/-- The value of up to eight bits, the first least significant. -/
def bitsToNat : List Bool → Nat
  | [] => 0
  | b :: rest => b.toNat + 2 * bitsToNat rest

/-- Byte `k` of a packed bit sequence; a bit past the end is 0. -/
def packedByte (bits : List Bool) (k : Nat) : Byte := BitVec.ofNat 8 (bitsToNat ((bits.drop (8 * k)).take 8))

/-- `n` bytes that hold a bit sequence, least significant bit first (R106). -/
def packBits (bits : List Bool) (n : Nat) : List Byte := (List.range n).map (packedByte bits)

/-! ### Placing one token (assumption 2) -/

/-- Where the next token of a format is waited for (R105). -/
def formatPhase : Format → Phase
  | .cmd => .idle
  | .status => .idle
  | .zhdr => .zlibHeader
  | .bhdr => .blockHeader
  | .stored => .storedHeader
  | .dynHdr => .dynHeader
  | .clSym => .clSymbol
  | .litLen => .litLenSymbol
  | .dist => .distSymbol
  | .trailer => .trailer
  | .filterRow => .rowHeader
  | .codeLen => .codeLength

/-- The OP of the command a format's tokens belong to (R100). -/
def formatOp : Format → BitVec 4
  | .filterRow => 2
  | .codeLen => 3
  | .cmd | .status | .zhdr | .bhdr | .stored | .dynHdr | .clSym | .litLen | .dist | .trailer => 1

/-- The latched parameters of a placed token: 16 input bytes at 0x1000, and room for output at 0x2000. -/
def stagedLatch (op : BitVec 4) : Latched :=
  { op := op, srcAddr := 0x1000, srcLen := 16, dstAddr := 0x2000, dstCap := 0x1000, rowBytes := 1, rows := 1,
    bpp := 1, nsym := 1 }

/-- A code-length code that gives each of its 19 symbols a code of 5 bits. -/
def stagedClCode : CodeTable := CodeTable.build (List.replicate Config.nClen 5)

/-- A running command whose next token has the value `v` of format `f`: its bits, and zeros after them, are the input;
the fixed codes are the literal/length and distance codes in force. -/
def State.stageToken (f : Format) (v : Nat) (s : State) : State :=
  let tll := CodeTable.build fixedLitLen
  let td := CodeTable.build fixedDist
  { s with busy := true, done := false, errf := false, err := .ok, abortReq := false, p := 0, lat := stagedLatch (formatOp f),
           phase := formatPhase f, tcl := stagedClCode, tll := tll, td := td, hlit := 257, hdist := 1, host := [],
           mem := memWriteBytes s.mem 0x1000 (packBits (tokenBits stagedClCode tll td f v) 16) }

/-- A host whose next action writes the word `v` to a register. -/
def State.stageWrite (r : Reg) (v : Nat) (s : State) : State :=
  { s with host := [⟨0, .write (s.plat.regBase + BitVec.ofNat 32 r.offset) (wordBytes (BitVec.ofNat 32 v))⟩] }

/-- Place the value `v` of format `f` as the next thing the machine runs. -/
def State.stage (f : Format) (v : Nat) (s : State) : State :=
  match f with
  | .cmd => s.stageWrite .ctrl v
  | .status => s.stageWrite .status v
  | .zhdr | .bhdr | .stored | .dynHdr | .clSym | .litLen | .dist | .trailer | .filterRow | .codeLen =>
    s.stageToken f v

end Sys2Proof.Machine
end

