-- ==== Sys2Proof/Machine/Commands.lean ====
section
/-! DEFINITION. The meanings of the host's commands: a CTRL write with START or ABORT set, and a STATUS write
(40_commands.md, R34, R120 to R128). Each START names its OP; while the engine is busy the same write only stores IE
and honours ABORT (R28). -/

namespace Sys2Proof.Machine

/-- INFLATE, OP = 1 (R123): after START the engine waits for the zlib header (R170). -/
def execInflate (abort ie : Bool) (s : State) : Out := ctrlWrite true abort ie 1 s

/-- UNFILTER, OP = 2 (R124): after START the engine waits for the first row's filter-type byte (R240). -/
def execUnfilter (abort ie : Bool) (s : State) : Out := ctrlWrite true abort ie 2 s

/-- HUFF_BUILD, OP = 3 (R125): after START the engine waits for the first code-length byte (R150). -/
def execHuffBuild (abort ie : Bool) (s : State) : Out := ctrlWrite true abort ie 3 s

/-- The reserved command OP = 0 (R126). -/
def execCmdReservedOp0 (abort ie : Bool) (s : State) : Out := ctrlWrite true abort ie 0 s

/-- The reserved command OP = 4 (R126). -/
def execCmdReservedOp4 (abort ie : Bool) (s : State) : Out := ctrlWrite true abort ie 4 s

/-- The reserved command OP = 5 (R126). -/
def execCmdReservedOp5 (abort ie : Bool) (s : State) : Out := ctrlWrite true abort ie 5 s

/-- The reserved command OP = 6 (R126). -/
def execCmdReservedOp6 (abort ie : Bool) (s : State) : Out := ctrlWrite true abort ie 6 s

/-- The reserved command OP = 7 (R126). -/
def execCmdReservedOp7 (abort ie : Bool) (s : State) : Out := ctrlWrite true abort ie 7 s

/-- The reserved command OP = 8 (R126). -/
def execCmdReservedOp8 (abort ie : Bool) (s : State) : Out := ctrlWrite true abort ie 8 s

/-- The reserved command OP = 9 (R126). -/
def execCmdReservedOp9 (abort ie : Bool) (s : State) : Out := ctrlWrite true abort ie 9 s

/-- The reserved command OP = 10 (R126). -/
def execCmdReservedOp10 (abort ie : Bool) (s : State) : Out := ctrlWrite true abort ie 10 s

/-- The reserved command OP = 11 (R126). -/
def execCmdReservedOp11 (abort ie : Bool) (s : State) : Out := ctrlWrite true abort ie 11 s

/-- The reserved command OP = 12 (R126). -/
def execCmdReservedOp12 (abort ie : Bool) (s : State) : Out := ctrlWrite true abort ie 12 s

/-- The reserved command OP = 13 (R126). -/
def execCmdReservedOp13 (abort ie : Bool) (s : State) : Out := ctrlWrite true abort ie 13 s

/-- The reserved command OP = 14 (R126). -/
def execCmdReservedOp14 (abort ie : Bool) (s : State) : Out := ctrlWrite true abort ie 14 s

/-- The reserved command OP = 15 (R126). -/
def execCmdReservedOp15 (abort ie : Bool) (s : State) : Out := ctrlWrite true abort ie 15 s

/-- ABORT without START (R127): while busy it requests an abort, while idle it only stores OP and IE. -/
def execAbort (ie : Bool) (op : BitVec 4) (s : State) : Out := ctrlWrite false true ie op s

/-- STATUS_CLEAR (R128): a 1 in bit 1 clears DONE, a 1 in bit 2 clears ERR. -/
def execStatusClear (done err : Bool) (s : State) : Out := .next (s.statusClear done err)

end Sys2Proof.Machine
end

