-- ==== Sys2Proof/Machine/Dynamic.lean ====
section
/-! DEFINITION. The meanings of the tokens of a dynamic block's header: the counts with the code-length code, and the
code-length symbols (R210 to R217). -/

namespace Sys2Proof.Machine

/-- `ReadCodeLengthCode(hclen)` (R211). -/
def readCodeLengthCode (hclen : Nat) : Act Unit :=
  (readFields 3 hclen).bind fun values s =>
    if overSubscribed (codeLengthLengths values) then .raised .invalidDynamicBlock s
    else .ok () { s with tcl := CodeTable.build (codeLengthLengths values) }

/-- DYNHDR (R210, R211): HLIT above 286 is refused after all three counts are read; then the code-length code is read,
and the code-length sequence begins with `n = 0` (R212). -/
def execDynHdr (hlit hdist : BitVec 5) (hclen : BitVec 4) (s : State) : Out :=
  tokenEnd
    (if hlitOk hlit then
      ((readCodeLengthCode (hclen.toNat + 4)).bind fun _ => engineSet fun s =>
        { s with hlit := hlit.toNat + 257, hdist := hdist.toNat + 1, clCount := 0, phase := .clSymbol }) s
     else .raised .invalidDynamicBlock s)

/-- The literal/length lengths of the sequence, padded with zeros to 288 symbols (R217). -/
def litLenLengths (s : State) : List (BitVec 4) :=
  s.lens.take s.hlit ++ List.replicate (Config.nLitLen - s.hlit) 0

/-- The distance lengths of the sequence, padded with zeros to 32 symbols (R217). -/
def distLengths (s : State) : List (BitVec 4) :=
  (s.lens.drop s.hlit).take s.hdist ++ List.replicate (Config.nDist - s.hdist) 0

/-- `BuildDynamicTrees(hlit, hdist)` (R217), after which the symbols follow. -/
def buildDynamicTrees : Act Unit := fun s =>
  if ((litLenLengths s).getD 256 0).toNat = 0 then .raised .invalidDynamicBlock s
  else if overSubscribed (litLenLengths s) then .raised .invalidDynamicBlock s
  else if overSubscribed (distLengths s) then .raised .invalidDynamicBlock s
  else .ok () { s with tll := CodeTable.build (litLenLengths s), td := CodeTable.build (distLengths s),
                       phase := .litLenSymbol }

/-- `lens[n .. n+r−1] <- v` (R213 to R216). -/
def setLens : List (BitVec 4) → (n r : Nat) → BitVec 4 → List (BitVec 4)
  | lens, _, 0, _ => lens
  | lens, n, r + 1, v => setLens (lens.set n v) (n + 1) r v

/-- `lens[n .. n+r−1] <- v; n <- n + r` (R213 to R216). -/
def State.appendLens (r : Nat) (v : BitVec 4) (s : State) : State :=
  { s with lens := setLens s.lens s.clCount r v, clCount := s.clCount + r }

/-- The loop condition of R212: the sequence goes on while `n < total`, and then the trees are built. -/
def clNext : Act Unit := fun s =>
  if s.clCount < s.hlit + s.hdist then .ok () s else buildDynamicTrees s

/-- `CLDirect(c)` (R213). -/
def clDirect (c : BitVec 4) : Act Unit := (engineSet (State.appendLens 1 c)).bind fun _ => clNext

/-- A run of `r` copies of `v`, refused where it passes `total` (R214 to R216). -/
def clRun (r : Nat) (v : BitVec 4) : Act Unit := fun s =>
  if s.hlit + s.hdist < s.clCount + r then .raised .invalidDynamicBlock s
  else ((engineSet (State.appendLens r v)).bind fun _ => clNext) s

/-- CL_LEN0 (R213). -/
def execClLen0 (s : State) : Out := tokenEnd (clDirect 0 s)

/-- CL_LEN1 (R213). -/
def execClLen1 (s : State) : Out := tokenEnd (clDirect 1 s)

/-- CL_LEN2 (R213). -/
def execClLen2 (s : State) : Out := tokenEnd (clDirect 2 s)

/-- CL_LEN3 (R213). -/
def execClLen3 (s : State) : Out := tokenEnd (clDirect 3 s)

/-- CL_LEN4 (R213). -/
def execClLen4 (s : State) : Out := tokenEnd (clDirect 4 s)

/-- CL_LEN5 (R213). -/
def execClLen5 (s : State) : Out := tokenEnd (clDirect 5 s)

/-- CL_LEN6 (R213). -/
def execClLen6 (s : State) : Out := tokenEnd (clDirect 6 s)

/-- CL_LEN7 (R213). -/
def execClLen7 (s : State) : Out := tokenEnd (clDirect 7 s)

/-- CL_LEN8 (R213). -/
def execClLen8 (s : State) : Out := tokenEnd (clDirect 8 s)

/-- CL_LEN9 (R213). -/
def execClLen9 (s : State) : Out := tokenEnd (clDirect 9 s)

/-- CL_LEN10 (R213). -/
def execClLen10 (s : State) : Out := tokenEnd (clDirect 10 s)

/-- CL_LEN11 (R213). -/
def execClLen11 (s : State) : Out := tokenEnd (clDirect 11 s)

/-- CL_LEN12 (R213). -/
def execClLen12 (s : State) : Out := tokenEnd (clDirect 12 s)

/-- CL_LEN13 (R213). -/
def execClLen13 (s : State) : Out := tokenEnd (clDirect 13 s)

/-- CL_LEN14 (R213). -/
def execClLen14 (s : State) : Out := tokenEnd (clDirect 14 s)

/-- CL_LEN15 (R213). -/
def execClLen15 (s : State) : Out := tokenEnd (clDirect 15 s)

/-- CL_REP_PREV (R214): 3 to 6 copies of the previous length; with no previous length it is refused before its extra
bits are read. -/
def execClRepPrev (s : State) : Out :=
  tokenEnd
    (if s.clCount = 0 then .raised .invalidDynamicBlock s
     else ((readBits 2).bind fun x s => clRun (3 + x) (s.lens.getD (s.clCount - 1) 0) s) s)

/-- CL_REP_ZERO_SHORT (R215): 3 to 10 zeros. -/
def execClRepZeroShort (s : State) : Out := tokenEnd (((readBits 3).bind fun x => clRun (3 + x) 0) s)

/-- CL_REP_ZERO_LONG (R216): 11 to 138 zeros. -/
def execClRepZeroLong (s : State) : Out := tokenEnd (((readBits 7).bind fun x => clRun (11 + x) 0) s)

end Sys2Proof.Machine
end

