-- ==== Sys2Proof/Machine/Framing.lean ====
section
/-! DEFINITION. The meanings of the framing tokens of INFLATE: the zlib header, the block headers with their dispatch on
BTYPE, the stored block and the trailer (42_inflate_framing.md; R200, R210 for the two Huffman block headers). The
fetch has moved the bit cursor past the token. -/

namespace Sys2Proof.Machine

/-- ZHDR (R174): a header that fails one of the three tests raises `InvalidZlibHeader`. -/
def execZhdr (cmf flg : Byte) (s : State) : Out :=
  tokenEnd (if headerOk cmf flg then .ok () (s.setPhase .blockHeader) else .raised .invalidZlibHeader s)

/-- BLOCK_STORED (R171, R172): the header is latched, and the stored-block header follows. -/
def execBlockStored (final : Bool) (s : State) : Out :=
  .next ((s.latchHeader final 0).setPhase .storedHeader)

/-- The trees of a fixed block (R200, R201). -/
def State.fixedTrees (s : State) : State :=
  { s with tll := CodeTable.build fixedLitLen, td := CodeTable.build fixedDist }

/-- BLOCK_FIXED (R171, R200): the header is latched, the fixed trees are built, and the symbols follow. -/
def execBlockFixed (final : Bool) (s : State) : Out :=
  .next (((s.latchHeader final 1).fixedTrees).setPhase .litLenSymbol)

/-- BLOCK_DYNAMIC (R171, R210): the header is latched, and the dynamic-block header follows. -/
def execBlockDynamic (final : Bool) (s : State) : Out :=
  .next ((s.latchHeader final 2).setPhase .dynHeader)

/-- BLOCK_RESERVED (R171, R173): BTYPE 3 is latched, and then `InvalidBlockType` is raised. -/
def execBlockReserved (final : Bool) (s : State) : Out :=
  tokenEnd (.raised .invalidBlockType (s.latchHeader final 3))

/-- STORED_LEN (R172): LEN and NLEN are checked before any data byte is read, then LEN bytes are copied. -/
def execStoredLen (len nlen : BitVec 16) (s : State) : Out :=
  tokenEnd
    (if storedOk len nlen then ((copyStored len.toNat).bind fun _ => engineSet State.blockEnd) s
     else .raised .invalidStoredBlock s)

/-- TRAILER (R178): the value is recorded, and must be the Adler-32 of all output; then the command completes. -/
def execTrailer (a : Word) (s : State) : Out :=
  tokenEnd
    (if a = adlerRead s then .ok () (State.complete .ok { s with trailer := a })
     else .raised .checksumMismatch { s with trailer := a })

end Sys2Proof.Machine
end

