-- ==== Sys2Proof/Machine/HuffBuild.lean ====
section
/-! DEFINITION. The meanings of the code-length bytes of HUFF_BUILD (R89, R150, R151). After the last of them the code is
built and written out. -/

namespace Sys2Proof.Machine

/-- `lens[s] <- v`, and the next symbol (R150). -/
def State.pushLength (v : BitVec 4) (s : State) : State :=
  { s with lens := s.lens.set s.symIdx v, symIdx := s.symIdx + 1 }

/-- Output word `s`: CODE in bits 15:0 and LEN in bits 19:16, or 0 for a symbol with no code (R151). -/
def codeWord (len : BitVec 4) (code : BitVec 15) : Word :=
  if len.toNat = 0 then 0 else BitVec.ofNat 32 (code.toNat + len.toNat * 65536)

/-- The output bytes of HUFF_BUILD for a code table (R150, R151). -/
def codeBytes (t : CodeTable) : List Byte :=
  (t.lengths.zip t.codes).flatMap fun (len, code) => wordBytes (codeWord len code)

/-- After the last length byte: the Kraft check, the construction, and the output words (R150). -/
def buildCode : Act Unit := fun s =>
  let lengths := s.lens.take s.lat.nsym.toNat
  if overSubscribed lengths then .raised .invalidDynamicBlock s
  else ((emitBytes (codeBytes (CodeTable.build lengths))).bind fun _ => engineSet (State.complete .ok))
    { s with thb := CodeTable.build lengths }

/-- HBLEN (R150). -/
def execHblen (len : BitVec 4) (s : State) : Out :=
  tokenEnd
    (if s.symIdx + 1 < s.lat.nsym.toNat then .ok () (s.pushLength len) else buildCode (s.pushLength len))

/-- HBLEN_INVALID_16_31 (R89, R150). -/
def execHblenInvalid16to31 (_low : BitVec 4) (s : State) : Out := tokenEnd (.raised .invalidParameter s)

/-- HBLEN_INVALID_32_63 (R89, R150). -/
def execHblenInvalid32to63 (_low : BitVec 5) (s : State) : Out := tokenEnd (.raised .invalidParameter s)

/-- HBLEN_INVALID_64_127 (R89, R150). -/
def execHblenInvalid64to127 (_low : BitVec 6) (s : State) : Out := tokenEnd (.raised .invalidParameter s)

/-- HBLEN_INVALID_128_255 (R89, R150). -/
def execHblenInvalid128to255 (_low : BitVec 7) (s : State) : Out := tokenEnd (.raised .invalidParameter s)

end Sys2Proof.Machine
end

