-- ==== Sys2Proof/Machine/Symbols.lean ====
section
/-! DEFINITION. The meanings of the symbols of a Huffman block: literals, end of block, lengths and distances with the
LZ77 copy (R220 to R232). -/

namespace Sys2Proof.Machine

/-- LIT (R221). -/
def execLit (b : Byte) (s : State) : Out := tokenEnd (emit b s)

/-- EOB (R222). -/
def execEob (s : State) : Out := .next s.blockEnd

/-- A match length is known, and its distance symbol follows (R223, R225). -/
def State.setMatch (length : Nat) (s : State) : State := { s with matchLen := length, phase := .distSymbol }

/-- Length symbol 257 + `k`: the base and the extra bits (R90, R223). -/
def lengthSymbol (k : Nat) : Act Unit :=
  (readBits (lengthExtraOf k)).bind fun x => engineSet (State.setMatch (lengthBaseOf k + x))

/-- Distance symbol `d` (R91, R227, R231, R232): the base and the extra bits, the range check, and then the copy. -/
def distSymbol (d : Nat) : Act Unit :=
  (readBits (distanceExtraOf d)).bind fun x s =>
    if s.out.toNat < distanceBaseOf d + x then .raised .distanceOutOfRange s
    else ((copyMatch (distanceBaseOf d + x) s.matchLen).bind fun _ =>
      engineSet (State.setPhase .litLenSymbol)) s

/-- LEN257 (R90, R223). -/
def execLen257 (s : State) : Out := tokenEnd (lengthSymbol 0 s)

/-- LEN258 (R90, R223). -/
def execLen258 (s : State) : Out := tokenEnd (lengthSymbol 1 s)

/-- LEN259 (R90, R223). -/
def execLen259 (s : State) : Out := tokenEnd (lengthSymbol 2 s)

/-- LEN260 (R90, R223). -/
def execLen260 (s : State) : Out := tokenEnd (lengthSymbol 3 s)

/-- LEN261 (R90, R223). -/
def execLen261 (s : State) : Out := tokenEnd (lengthSymbol 4 s)

/-- LEN262 (R90, R223). -/
def execLen262 (s : State) : Out := tokenEnd (lengthSymbol 5 s)

/-- LEN263 (R90, R223). -/
def execLen263 (s : State) : Out := tokenEnd (lengthSymbol 6 s)

/-- LEN264 (R90, R223). -/
def execLen264 (s : State) : Out := tokenEnd (lengthSymbol 7 s)

/-- LEN265 (R90, R223). -/
def execLen265 (s : State) : Out := tokenEnd (lengthSymbol 8 s)

/-- LEN266 (R90, R223). -/
def execLen266 (s : State) : Out := tokenEnd (lengthSymbol 9 s)

/-- LEN267 (R90, R223). -/
def execLen267 (s : State) : Out := tokenEnd (lengthSymbol 10 s)

/-- LEN268 (R90, R223). -/
def execLen268 (s : State) : Out := tokenEnd (lengthSymbol 11 s)

/-- LEN269 (R90, R223). -/
def execLen269 (s : State) : Out := tokenEnd (lengthSymbol 12 s)

/-- LEN270 (R90, R223). -/
def execLen270 (s : State) : Out := tokenEnd (lengthSymbol 13 s)

/-- LEN271 (R90, R223). -/
def execLen271 (s : State) : Out := tokenEnd (lengthSymbol 14 s)

/-- LEN272 (R90, R223). -/
def execLen272 (s : State) : Out := tokenEnd (lengthSymbol 15 s)

/-- LEN273 (R90, R223). -/
def execLen273 (s : State) : Out := tokenEnd (lengthSymbol 16 s)

/-- LEN274 (R90, R223). -/
def execLen274 (s : State) : Out := tokenEnd (lengthSymbol 17 s)

/-- LEN275 (R90, R223). -/
def execLen275 (s : State) : Out := tokenEnd (lengthSymbol 18 s)

/-- LEN276 (R90, R223). -/
def execLen276 (s : State) : Out := tokenEnd (lengthSymbol 19 s)

/-- LEN277 (R90, R223). -/
def execLen277 (s : State) : Out := tokenEnd (lengthSymbol 20 s)

/-- LEN278 (R90, R223). -/
def execLen278 (s : State) : Out := tokenEnd (lengthSymbol 21 s)

/-- LEN279 (R90, R223). -/
def execLen279 (s : State) : Out := tokenEnd (lengthSymbol 22 s)

/-- LEN280 (R90, R223). -/
def execLen280 (s : State) : Out := tokenEnd (lengthSymbol 23 s)

/-- LEN281 (R90, R223). -/
def execLen281 (s : State) : Out := tokenEnd (lengthSymbol 24 s)

/-- LEN282 (R90, R223). -/
def execLen282 (s : State) : Out := tokenEnd (lengthSymbol 25 s)

/-- LEN283 (R90, R223). -/
def execLen283 (s : State) : Out := tokenEnd (lengthSymbol 26 s)

/-- LEN284 (R90, R223). -/
def execLen284 (s : State) : Out := tokenEnd (lengthSymbol 27 s)

/-- LEN285 (R90, R223). -/
def execLen285 (s : State) : Out := tokenEnd (lengthSymbol 28 s)

/-- LL_RESERVED286 (R224). -/
def execLlReserved286 (s : State) : Out := tokenEnd (.raised .invalidHuffmanSymbol s)

/-- LL_RESERVED287 (R224). -/
def execLlReserved287 (s : State) : Out := tokenEnd (.raised .invalidHuffmanSymbol s)

/-- DIST0 (R91, R225, R227, R231). -/
def execDist0 (s : State) : Out := tokenEnd (distSymbol 0 s)

/-- DIST1 (R91, R225, R227, R231). -/
def execDist1 (s : State) : Out := tokenEnd (distSymbol 1 s)

/-- DIST2 (R91, R225, R227, R231). -/
def execDist2 (s : State) : Out := tokenEnd (distSymbol 2 s)

/-- DIST3 (R91, R225, R227, R231). -/
def execDist3 (s : State) : Out := tokenEnd (distSymbol 3 s)

/-- DIST4 (R91, R225, R227, R231). -/
def execDist4 (s : State) : Out := tokenEnd (distSymbol 4 s)

/-- DIST5 (R91, R225, R227, R231). -/
def execDist5 (s : State) : Out := tokenEnd (distSymbol 5 s)

/-- DIST6 (R91, R225, R227, R231). -/
def execDist6 (s : State) : Out := tokenEnd (distSymbol 6 s)

/-- DIST7 (R91, R225, R227, R231). -/
def execDist7 (s : State) : Out := tokenEnd (distSymbol 7 s)

/-- DIST8 (R91, R225, R227, R231). -/
def execDist8 (s : State) : Out := tokenEnd (distSymbol 8 s)

/-- DIST9 (R91, R225, R227, R231). -/
def execDist9 (s : State) : Out := tokenEnd (distSymbol 9 s)

/-- DIST10 (R91, R225, R227, R231). -/
def execDist10 (s : State) : Out := tokenEnd (distSymbol 10 s)

/-- DIST11 (R91, R225, R227, R231). -/
def execDist11 (s : State) : Out := tokenEnd (distSymbol 11 s)

/-- DIST12 (R91, R225, R227, R231). -/
def execDist12 (s : State) : Out := tokenEnd (distSymbol 12 s)

/-- DIST13 (R91, R225, R227, R231). -/
def execDist13 (s : State) : Out := tokenEnd (distSymbol 13 s)

/-- DIST14 (R91, R225, R227, R231). -/
def execDist14 (s : State) : Out := tokenEnd (distSymbol 14 s)

/-- DIST15 (R91, R225, R227, R231). -/
def execDist15 (s : State) : Out := tokenEnd (distSymbol 15 s)

/-- DIST16 (R91, R225, R227, R231). -/
def execDist16 (s : State) : Out := tokenEnd (distSymbol 16 s)

/-- DIST17 (R91, R225, R227, R231). -/
def execDist17 (s : State) : Out := tokenEnd (distSymbol 17 s)

/-- DIST18 (R91, R225, R227, R231). -/
def execDist18 (s : State) : Out := tokenEnd (distSymbol 18 s)

/-- DIST19 (R91, R225, R227, R231). -/
def execDist19 (s : State) : Out := tokenEnd (distSymbol 19 s)

/-- DIST20 (R91, R225, R227, R231). -/
def execDist20 (s : State) : Out := tokenEnd (distSymbol 20 s)

/-- DIST21 (R91, R225, R227, R231). -/
def execDist21 (s : State) : Out := tokenEnd (distSymbol 21 s)

/-- DIST22 (R91, R225, R227, R231). -/
def execDist22 (s : State) : Out := tokenEnd (distSymbol 22 s)

/-- DIST23 (R91, R225, R227, R231). -/
def execDist23 (s : State) : Out := tokenEnd (distSymbol 23 s)

/-- DIST24 (R91, R225, R227, R231). -/
def execDist24 (s : State) : Out := tokenEnd (distSymbol 24 s)

/-- DIST25 (R91, R225, R227, R231). -/
def execDist25 (s : State) : Out := tokenEnd (distSymbol 25 s)

/-- DIST26 (R91, R225, R227, R231). -/
def execDist26 (s : State) : Out := tokenEnd (distSymbol 26 s)

/-- DIST27 (R91, R225, R227, R231). -/
def execDist27 (s : State) : Out := tokenEnd (distSymbol 27 s)

/-- DIST28 (R91, R225, R227, R231). -/
def execDist28 (s : State) : Out := tokenEnd (distSymbol 28 s)

/-- DIST29 (R91, R225, R227, R231). -/
def execDist29 (s : State) : Out := tokenEnd (distSymbol 29 s)

/-- DIST_RESERVED30 (R226). -/
def execDistReserved30 (s : State) : Out := tokenEnd (.raised .invalidHuffmanSymbol s)

/-- DIST_RESERVED31 (R226). -/
def execDistReserved31 (s : State) : Out := tokenEnd (.raised .invalidHuffmanSymbol s)

end Sys2Proof.Machine
end

