-- ==== Sys2Proof/Machine/Unfilter.lean ====
section
/-! DEFINITION. The meanings of the rows of UNFILTER, by filter type (44_unfilter.md). The fetch has read the filter-type
byte; a legal one reconstructs its whole row. -/

namespace Sys2Proof.Machine

/-- A neighbour: output byte `k` where it lies in the image, and 0 outside (R242). -/
def neighbour (inside : Bool) (k : Nat) : Act Nat :=
  if inside then (outByte k).bind fun b => .pure b.toNat else .pure 0

/-- `Neighbours(r, i, rowstart)`: left, above and upper-left (R242). -/
def neighbours (i rowstart : Nat) : Act (Nat × Nat × Nat) := fun s =>
  let bpp := s.lat.bpp.toNat
  let rb := s.lat.rowBytes.toNat
  ((neighbour (bpp ≤ i) (rowstart + i - bpp)).bind fun a =>
    (neighbour (1 ≤ s.row) (rowstart - rb + i)).bind fun b =>
      (neighbour (1 ≤ s.row && bpp ≤ i) (rowstart - rb + i - bpp)).bind fun c => .pure (a, b, c)) s

/-- The inner loop of R240, from byte `i` on, with `n` bytes to go. -/
def unfilterBytes (pred : Nat → Nat → Nat → Nat) (rowstart : Nat) : (i n : Nat) → Act Unit
  | _, 0 => .pure ()
  | i, n + 1 =>
    (readBits 8).bind fun x => (neighbours i rowstart).bind fun (a, b, c) =>
      (emit (reconstruct x (pred a b c))).bind fun _ => unfilterBytes pred rowstart (i + 1) n

/-- The end of a row: the next row, or completion after the last (R240). -/
def State.rowEnd (s : State) : State :=
  if s.row + 1 < s.lat.rows.toNat then { s with row := s.row + 1, phase := .rowHeader }
  else State.complete .ok { s with row := s.row + 1 }

/-- One row with its predictor; `rowstart` is `out` at its beginning (R240). -/
def unfilterRow (pred : Nat → Nat → Nat → Nat) : Act Unit := fun s =>
  ((unfilterBytes pred s.out.toNat 0 s.lat.rowBytes.toNat).bind fun _ => engineSet State.rowEnd) s

/-- FILTER_NONE (R244). -/
def execFilterNone (s : State) : Out := tokenEnd (unfilterRow predNone s)

/-- FILTER_SUB (R245). -/
def execFilterSub (s : State) : Out := tokenEnd (unfilterRow predSub s)

/-- FILTER_UP (R246). -/
def execFilterUp (s : State) : Out := tokenEnd (unfilterRow predUp s)

/-- FILTER_AVERAGE (R247). -/
def execFilterAverage (s : State) : Out := tokenEnd (unfilterRow predAverage s)

/-- FILTER_PAETH (R248). -/
def execFilterPaeth (s : State) : Out := tokenEnd (unfilterRow predPaeth s)

/-- FILTER_RESERVED_5_5 (R241, R249). -/
def execFilterReserved5 (s : State) : Out := tokenEnd (.raised .invalidFilterType s)

/-- FILTER_RESERVED_6_6 (R241, R249). -/
def execFilterReserved6 (s : State) : Out := tokenEnd (.raised .invalidFilterType s)

/-- FILTER_RESERVED_7_7 (R241, R249). -/
def execFilterReserved7 (s : State) : Out := tokenEnd (.raised .invalidFilterType s)

/-- FILTER_RESERVED_8_15 (R241, R249). -/
def execFilterReserved8to15 (_low : BitVec 3) (s : State) : Out := tokenEnd (.raised .invalidFilterType s)

/-- FILTER_RESERVED_16_31 (R241, R249). -/
def execFilterReserved16to31 (_low : BitVec 4) (s : State) : Out := tokenEnd (.raised .invalidFilterType s)

/-- FILTER_RESERVED_32_63 (R241, R249). -/
def execFilterReserved32to63 (_low : BitVec 5) (s : State) : Out := tokenEnd (.raised .invalidFilterType s)

/-- FILTER_RESERVED_64_127 (R241, R249). -/
def execFilterReserved64to127 (_low : BitVec 6) (s : State) : Out := tokenEnd (.raised .invalidFilterType s)

/-- FILTER_RESERVED_128_255 (R241, R249). -/
def execFilterReserved128to255 (_low : BitVec 7) (s : State) : Out := tokenEnd (.raised .invalidFilterType s)

end Sys2Proof.Machine
end

