-- ==== Sys2Proof/Machine/Dispatch.lean ====
section
/-! DEFINITION. One arm per instruction: the direct call of its meaning. -/

namespace Sys2Proof.Machine

def exec (i : Instr) (s : State) : Host.Outcome State Fault Refusal :=
  match i with
  | .inflate abort ie => Sys2Proof.Machine.execInflate abort ie s
  | .unfilter abort ie => Sys2Proof.Machine.execUnfilter abort ie s
  | .huffBuild abort ie => Sys2Proof.Machine.execHuffBuild abort ie s
  | .cmdReservedOp0 abort ie => Sys2Proof.Machine.execCmdReservedOp0 abort ie s
  | .cmdReservedOp4 abort ie => Sys2Proof.Machine.execCmdReservedOp4 abort ie s
  | .cmdReservedOp5 abort ie => Sys2Proof.Machine.execCmdReservedOp5 abort ie s
  | .cmdReservedOp6 abort ie => Sys2Proof.Machine.execCmdReservedOp6 abort ie s
  | .cmdReservedOp7 abort ie => Sys2Proof.Machine.execCmdReservedOp7 abort ie s
  | .cmdReservedOp8 abort ie => Sys2Proof.Machine.execCmdReservedOp8 abort ie s
  | .cmdReservedOp9 abort ie => Sys2Proof.Machine.execCmdReservedOp9 abort ie s
  | .cmdReservedOp10 abort ie => Sys2Proof.Machine.execCmdReservedOp10 abort ie s
  | .cmdReservedOp11 abort ie => Sys2Proof.Machine.execCmdReservedOp11 abort ie s
  | .cmdReservedOp12 abort ie => Sys2Proof.Machine.execCmdReservedOp12 abort ie s
  | .cmdReservedOp13 abort ie => Sys2Proof.Machine.execCmdReservedOp13 abort ie s
  | .cmdReservedOp14 abort ie => Sys2Proof.Machine.execCmdReservedOp14 abort ie s
  | .cmdReservedOp15 abort ie => Sys2Proof.Machine.execCmdReservedOp15 abort ie s
  | .abort ie op => Sys2Proof.Machine.execAbort ie op s
  | .statusClear done err => Sys2Proof.Machine.execStatusClear done err s
  | .zhdr cmf flg => Sys2Proof.Machine.execZhdr cmf flg s
  | .blockStored final => Sys2Proof.Machine.execBlockStored final s
  | .blockFixed final => Sys2Proof.Machine.execBlockFixed final s
  | .blockDynamic final => Sys2Proof.Machine.execBlockDynamic final s
  | .blockReserved final => Sys2Proof.Machine.execBlockReserved final s
  | .storedLen len nlen => Sys2Proof.Machine.execStoredLen len nlen s
  | .dynHdr hlit hdist hclen => Sys2Proof.Machine.execDynHdr hlit hdist hclen s
  | .clLen0 => Sys2Proof.Machine.execClLen0 s
  | .clLen1 => Sys2Proof.Machine.execClLen1 s
  | .clLen2 => Sys2Proof.Machine.execClLen2 s
  | .clLen3 => Sys2Proof.Machine.execClLen3 s
  | .clLen4 => Sys2Proof.Machine.execClLen4 s
  | .clLen5 => Sys2Proof.Machine.execClLen5 s
  | .clLen6 => Sys2Proof.Machine.execClLen6 s
  | .clLen7 => Sys2Proof.Machine.execClLen7 s
  | .clLen8 => Sys2Proof.Machine.execClLen8 s
  | .clLen9 => Sys2Proof.Machine.execClLen9 s
  | .clLen10 => Sys2Proof.Machine.execClLen10 s
  | .clLen11 => Sys2Proof.Machine.execClLen11 s
  | .clLen12 => Sys2Proof.Machine.execClLen12 s
  | .clLen13 => Sys2Proof.Machine.execClLen13 s
  | .clLen14 => Sys2Proof.Machine.execClLen14 s
  | .clLen15 => Sys2Proof.Machine.execClLen15 s
  | .clRepPrev => Sys2Proof.Machine.execClRepPrev s
  | .clRepZeroShort => Sys2Proof.Machine.execClRepZeroShort s
  | .clRepZeroLong => Sys2Proof.Machine.execClRepZeroLong s
  | .lit b => Sys2Proof.Machine.execLit b s
  | .eob => Sys2Proof.Machine.execEob s
  | .len257 => Sys2Proof.Machine.execLen257 s
  | .len258 => Sys2Proof.Machine.execLen258 s
  | .len259 => Sys2Proof.Machine.execLen259 s
  | .len260 => Sys2Proof.Machine.execLen260 s
  | .len261 => Sys2Proof.Machine.execLen261 s
  | .len262 => Sys2Proof.Machine.execLen262 s
  | .len263 => Sys2Proof.Machine.execLen263 s
  | .len264 => Sys2Proof.Machine.execLen264 s
  | .len265 => Sys2Proof.Machine.execLen265 s
  | .len266 => Sys2Proof.Machine.execLen266 s
  | .len267 => Sys2Proof.Machine.execLen267 s
  | .len268 => Sys2Proof.Machine.execLen268 s
  | .len269 => Sys2Proof.Machine.execLen269 s
  | .len270 => Sys2Proof.Machine.execLen270 s
  | .len271 => Sys2Proof.Machine.execLen271 s
  | .len272 => Sys2Proof.Machine.execLen272 s
  | .len273 => Sys2Proof.Machine.execLen273 s
  | .len274 => Sys2Proof.Machine.execLen274 s
  | .len275 => Sys2Proof.Machine.execLen275 s
  | .len276 => Sys2Proof.Machine.execLen276 s
  | .len277 => Sys2Proof.Machine.execLen277 s
  | .len278 => Sys2Proof.Machine.execLen278 s
  | .len279 => Sys2Proof.Machine.execLen279 s
  | .len280 => Sys2Proof.Machine.execLen280 s
  | .len281 => Sys2Proof.Machine.execLen281 s
  | .len282 => Sys2Proof.Machine.execLen282 s
  | .len283 => Sys2Proof.Machine.execLen283 s
  | .len284 => Sys2Proof.Machine.execLen284 s
  | .len285 => Sys2Proof.Machine.execLen285 s
  | .llReserved286 => Sys2Proof.Machine.execLlReserved286 s
  | .llReserved287 => Sys2Proof.Machine.execLlReserved287 s
  | .dist0 => Sys2Proof.Machine.execDist0 s
  | .dist1 => Sys2Proof.Machine.execDist1 s
  | .dist2 => Sys2Proof.Machine.execDist2 s
  | .dist3 => Sys2Proof.Machine.execDist3 s
  | .dist4 => Sys2Proof.Machine.execDist4 s
  | .dist5 => Sys2Proof.Machine.execDist5 s
  | .dist6 => Sys2Proof.Machine.execDist6 s
  | .dist7 => Sys2Proof.Machine.execDist7 s
  | .dist8 => Sys2Proof.Machine.execDist8 s
  | .dist9 => Sys2Proof.Machine.execDist9 s
  | .dist10 => Sys2Proof.Machine.execDist10 s
  | .dist11 => Sys2Proof.Machine.execDist11 s
  | .dist12 => Sys2Proof.Machine.execDist12 s
  | .dist13 => Sys2Proof.Machine.execDist13 s
  | .dist14 => Sys2Proof.Machine.execDist14 s
  | .dist15 => Sys2Proof.Machine.execDist15 s
  | .dist16 => Sys2Proof.Machine.execDist16 s
  | .dist17 => Sys2Proof.Machine.execDist17 s
  | .dist18 => Sys2Proof.Machine.execDist18 s
  | .dist19 => Sys2Proof.Machine.execDist19 s
  | .dist20 => Sys2Proof.Machine.execDist20 s
  | .dist21 => Sys2Proof.Machine.execDist21 s
  | .dist22 => Sys2Proof.Machine.execDist22 s
  | .dist23 => Sys2Proof.Machine.execDist23 s
  | .dist24 => Sys2Proof.Machine.execDist24 s
  | .dist25 => Sys2Proof.Machine.execDist25 s
  | .dist26 => Sys2Proof.Machine.execDist26 s
  | .dist27 => Sys2Proof.Machine.execDist27 s
  | .dist28 => Sys2Proof.Machine.execDist28 s
  | .dist29 => Sys2Proof.Machine.execDist29 s
  | .distReserved30 => Sys2Proof.Machine.execDistReserved30 s
  | .distReserved31 => Sys2Proof.Machine.execDistReserved31 s
  | .trailer a => Sys2Proof.Machine.execTrailer a s
  | .filterNone => Sys2Proof.Machine.execFilterNone s
  | .filterSub => Sys2Proof.Machine.execFilterSub s
  | .filterUp => Sys2Proof.Machine.execFilterUp s
  | .filterAverage => Sys2Proof.Machine.execFilterAverage s
  | .filterPaeth => Sys2Proof.Machine.execFilterPaeth s
  | .filterReserved5 => Sys2Proof.Machine.execFilterReserved5 s
  | .filterReserved6 => Sys2Proof.Machine.execFilterReserved6 s
  | .filterReserved7 => Sys2Proof.Machine.execFilterReserved7 s
  | .filterReserved8to15 low => Sys2Proof.Machine.execFilterReserved8to15 low s
  | .filterReserved16to31 low => Sys2Proof.Machine.execFilterReserved16to31 low s
  | .filterReserved32to63 low => Sys2Proof.Machine.execFilterReserved32to63 low s
  | .filterReserved64to127 low => Sys2Proof.Machine.execFilterReserved64to127 low s
  | .filterReserved128to255 low => Sys2Proof.Machine.execFilterReserved128to255 low s
  | .hblen len => Sys2Proof.Machine.execHblen len s
  | .hblenInvalid16to31 low => Sys2Proof.Machine.execHblenInvalid16to31 low s
  | .hblenInvalid32to63 low => Sys2Proof.Machine.execHblenInvalid32to63 low s
  | .hblenInvalid64to127 low => Sys2Proof.Machine.execHblenInvalid64to127 low s
  | .hblenInvalid128to255 low => Sys2Proof.Machine.execHblenInvalid128to255 low s

end Sys2Proof.Machine
end

