-- ==== Sys2Proof/Machine/Fetch.lean ====
section
/-! DEFINITION. Fetching a token: which format the position in the sequence calls for (R105), and reading its value
off the input with the primitives of the bit cursor (R81 to R89). -/

namespace Sys2Proof.Machine

/-- The format of the next token (R105). -/
def Phase.format : Phase → Option Format
  | .idle => none
  | .zlibHeader => some .zhdr
  | .blockHeader => some .bhdr
  | .storedHeader => some .stored
  | .dynHeader => some .dynHdr
  | .clSymbol => some .clSym
  | .litLenSymbol => some .litLen
  | .distSymbol => some .dist
  | .trailer => some .trailer
  | .rowHeader => some .filterRow
  | .codeLength => some .codeLen

/-- `CMF = ReadBits(8)`, `FLG = ReadBits(8)`; the value is `CMF·256 + FLG` (R81, R174). -/
def fetchZlibHeader : Act Nat :=
  (readBits 8).bind fun cmf => (readBits 8).bind fun flg => .pure (cmf * 256 + flg)

/-- `BFINAL = ReadBits(1)`, `BTYPE = ReadBits(2)` (R82, R171). -/
def fetchBlockHeader : Act Nat :=
  (readBits 1).bind fun f => (readBits 2).bind fun t => .pure (f + 2 * t)

/-- `AlignToByte()`, `LEN = ReadBits(16)`, `NLEN = ReadBits(16)` (R83, R172). -/
def fetchStoredHeader : Act Nat :=
  alignToByte.bind fun _ => (readBits 16).bind fun len => (readBits 16).bind fun nlen => .pure (len + 65536 * nlen)

/-- The three counts of a dynamic block header (R84, R210). -/
def fetchDynHeader : Act Nat :=
  (readBits 5).bind fun hlit => (readBits 5).bind fun hdist => (readBits 4).bind fun hclen =>
    .pure (hlit + 32 * hdist + 1024 * hclen)

/-- `AlignToByte()` and the big-endian value of four bytes (R86, R178). -/
def fetchTrailer : Act Nat :=
  alignToByte.bind fun _ => (readBits 8).bind fun a3 => (readBits 8).bind fun a2 => (readBits 8).bind fun a1 =>
    (readBits 8).bind fun a0 => .pure (a3 * 2 ^ 24 + a2 * 2 ^ 16 + a1 * 2 ^ 8 + a0)

/-- A symbol of the code-length code (R87, R212). -/
def fetchClSymbol : Act Nat := fun s => decodeSym s.tcl s

/-- A symbol of the literal/length code (R85, R220). -/
def fetchLitLen : Act Nat := fun s => decodeSym s.tll s

/-- A symbol of the distance code (R85, R225). -/
def fetchDist : Act Nat := fun s => decodeSym s.td s

/-- The filter-type byte of a row (R88, R241). -/
def fetchFilterByte : Act Nat := readBits 8

/-- One code-length byte (R89, R150). -/
def fetchCodeLength : Act Nat := readBits 8

/-- Read the value of a format off the input. CTRL and STATUS words come from the host, not from the input. -/
def fetchValue : Format → Act Nat
  | .cmd => .pure 0
  | .status => .pure 0
  | .zhdr => fetchZlibHeader
  | .bhdr => fetchBlockHeader
  | .stored => fetchStoredHeader
  | .dynHdr => fetchDynHeader
  | .clSym => fetchClSymbol
  | .litLen => fetchLitLen
  | .dist => fetchDist
  | .trailer => fetchTrailer
  | .filterRow => fetchFilterByte
  | .codeLen => fetchCodeLength

end Sys2Proof.Machine
end

