-- ==== Sys2Proof/Machine/Step.lean ====
section
/-! DEFINITION. One step of the machine: one bus action of the host, or one token of the engine (R14, R15; assumption
1). The state's list of host actions says which moves next. -/

namespace Sys2Proof.Machine

/-- The engine takes one token: it fetches the token's value, decodes it and runs the instruction; an error raised by the
fetch completes the command (R121, R272). -/
def engineStep (s : State) : Host.Outcome State Fault Refusal :=
  match s.phase.format with
  | none => .refused .engineIdle
  | some f =>
    match fetchValue f s with
    | .raised e s' => tokenEnd (.raised e s')
    | .ok v s' =>
      match decode f v with
      | .ok i => exec i s'
      | .error _ => .refused .noSuchToken

/-- The engine's turn: a token while busy; while idle the IUE does nothing (R292). -/
def engineTick (s : State) : Host.Outcome State Fault Refusal :=
  if s.busy then engineStep s else .next s

/-- A write of a register: a CTRL or STATUS word that decodes to an instruction runs it (R28, R120, R128); other writes
store a parameter or are ignored (R129). -/
def regWrite (r : Reg) (w : Word) (s : State) : Host.Outcome State Fault Refusal :=
  match r with
  | .ctrl =>
    match decode .cmd w.toNat with
    | .ok i => exec i s
    | .error _ => ctrlStore w s
  | .status =>
    match decode .status w.toNat with
    | .ok i => exec i s
    | .error _ => .next s
  | .errcode | .srcAddr | .srcLen | .dstAddr | .dstCap | .outLen | .inBitpos | .adler | .trailer | .blkhdr
  | .unfRowbytes | .unfRows | .unfBpp | .hbNsym => .next (paramWrite r w s)

/-- A bus write by the host. -/
def hostWrite (a : Word) (bytes : List Byte) (s : State) : Host.Outcome State Fault Refusal :=
  match busTarget s.plat a.toNat bytes.length with
  | .register r => regWrite r (wordOfBytes bytes) s
  | .memory => hostMemWrite a.toNat bytes s
  | .stuck f => .fault f

/-- A bus read by the host. -/
def hostRead (a : Word) (n : Nat) (s : State) : Host.Outcome State Fault Refusal :=
  match busTarget s.plat a.toNat n with
  | .register r => .next (hostRegRead r s)
  | .memory => hostMemRead a.toNat n s
  | .stuck f => .fault f

/-- The reset input (R310). During a command it may stop the token in progress at any of its primitives, or arrive after
the token: the free values that pick an abort's boundary pick this one too (R311, assumption 9). -/
def hostReset (s : State) : Host.Outcome State Fault Refusal :=
  if s.busy then
    match engineStep { s with abortReq := true, resetIn := true } with
    | .next s' => .next (deviceReset s')
    | .fault _ => .next (deviceReset s)
    | .refused _ => .next (deviceReset s)
  else .next (deviceReset s)

/-- One step. The host's next action takes place when its wait is over; until then, and while the host polls for DONE
(assumption 21), the engine has its turn. -/
def step (s : State) : Host.Outcome State Fault Refusal :=
  match s.host with
  | [] => engineTick s
  | ⟨k + 1, act⟩ :: rest => engineTick { s with host := ⟨k, act⟩ :: rest }
  | ⟨0, .write a bytes⟩ :: rest => hostWrite a bytes { s with host := rest }
  | ⟨0, .read a n⟩ :: rest => hostRead a n { s with host := rest }
  | ⟨0, .waitDone⟩ :: rest => if s.done then .next { s with host := rest } else engineTick s
  | ⟨0, .reset⟩ :: rest => hostReset { s with host := rest }

/-- The state with a table word placed so that the very next step runs its instruction: a CTRL or STATUS word as the
host's next write, a token as the next token of a running command. A word that no row of the table has is not placed. -/
def State.withFetchWord (s : State) (nbits w : Nat) : State :=
  match tableRow nbits w with
  | some r => s.stage r.format w
  | none => s

end Sys2Proof.Machine
end

