-- ==== Sys2Proof/Safety.lean ====
section
/-! DEFINITION. What a safe state and a safe change are, in the terms the claims use: the invariant of the machine, the
side of the state an engine step leaves alone, and the memory it may change. -/

namespace Sys2Proof.Machine

/-- No abort is requested, so no step boundary can stop the command (R285). -/
def Quiet (s : State) : Prop := s.abortReq = false

/-- At least `n` more bits of input (R141). -/
def HasBits (s : State) (n : Nat) : Prop := s.p.toNat + n ≤ inputBits s

/-- Room for `n` more bytes of output (R175). -/
def HasRoom (s : State) (n : Nat) : Prop := s.out.toNat + n ≤ s.lat.dstCap.toNat

/-- The command's ranges are as R122 admits them: neither wraps, the input is short enough for a 32-bit bit cursor, and
they do not overlap. -/
def LegalRanges (l : Latched) : Prop :=
  l.srcLen.toNat ≤ Config.srcLenMax ∧ l.srcAddr.toNat + l.srcLen.toNat ≤ Config.addrSpace ∧
  l.dstAddr.toNat + l.dstCap.toNat ≤ Config.addrSpace ∧
  rangesMeet l.srcAddr.toNat l.srcLen.toNat l.dstAddr.toNat l.dstCap.toNat = false

/-- The host's side of the state: CTRL's stored fields, the parameter registers, the latched parameters, the platform,
the pending host actions, the host's last read and the reset input. -/
def SameHostSide (s t : State) : Prop :=
  t.op = s.op ∧ t.ie = s.ie ∧ t.srcAddr = s.srcAddr ∧ t.srcLen = s.srcLen ∧ t.dstAddr = s.dstAddr ∧
  t.dstCap = s.dstCap ∧ t.rowBytes = s.rowBytes ∧ t.rows = s.rows ∧ t.bpp = s.bpp ∧ t.nsym = s.nsym ∧
  t.lat = s.lat ∧ t.plat = s.plat ∧ t.host = s.host ∧ t.rdata = s.rdata ∧ t.resetIn = s.resetIn

/-- Memory is unchanged at every address that holds none of the output bytes `k` with `lo ≤ k < hi` of the running
command. -/
def OnlyOutputBytes (s t : State) (lo hi : Nat) : Prop :=
  ∀ a, (∀ k, lo ≤ k → k < hi → a ≠ destAddr s k) → memRead t.mem a = memRead s.mem a

/-- Memory reads the same at every address. -/
def SameMemory (s t : State) : Prop := ∀ a, memRead t.mem a = memRead s.mem a

/-- The three commands with their OP and their first token (R100, R123 to R125). -/
def startCommands (abort ie : Bool) : List (Instr × BitVec 4 × Phase) :=
  [(.inflate abort ie, 1, .zlibHeader), (.unfilter abort ie, 2, .rowHeader), (.huffBuild abort ie, 3, .codeLength)]

/-- The reserved commands with their OP (R100, R126). -/
def reservedCommands (abort ie : Bool) : List (Instr × BitVec 4) :=
  [(.cmdReservedOp0 abort ie, 0), (.cmdReservedOp4 abort ie, 4), (.cmdReservedOp5 abort ie, 5), (.cmdReservedOp6 abort ie, 6),
   (.cmdReservedOp7 abort ie, 7), (.cmdReservedOp8 abort ie, 8), (.cmdReservedOp9 abort ie, 9), (.cmdReservedOp10 abort ie, 10),
   (.cmdReservedOp11 abort ie, 11), (.cmdReservedOp12 abort ie, 12), (.cmdReservedOp13 abort ie, 13), (.cmdReservedOp14 abort ie, 14),
   (.cmdReservedOp15 abort ie, 15)]

/-- The block headers with a body: the instruction, its BTYPE and the token that follows (R101). -/
def bodyBlocks (final : Bool) : List (Instr × BitVec 2 × Phase) :=
  [(.blockStored final, 0, .storedHeader), (.blockDynamic final, 2, .dynHeader)]

/-- The code-length symbols: the number of their extra bits, their smallest run, and the length they write (R87, R93,
R213 to R216). -/
def codeLengthRuns : List (Instr × Nat × Nat × (State → BitVec 4)) :=
  [(.clLen0, 0, 1, fun _ => 0), (.clLen1, 0, 1, fun _ => 1), (.clLen2, 0, 1, fun _ => 2), (.clLen3, 0, 1, fun _ => 3),
   (.clLen4, 0, 1, fun _ => 4), (.clLen5, 0, 1, fun _ => 5), (.clLen6, 0, 1, fun _ => 6), (.clLen7, 0, 1, fun _ => 7),
   (.clLen8, 0, 1, fun _ => 8), (.clLen9, 0, 1, fun _ => 9), (.clLen10, 0, 1, fun _ => 10),
   (.clLen11, 0, 1, fun _ => 11), (.clLen12, 0, 1, fun _ => 12), (.clLen13, 0, 1, fun _ => 13),
   (.clLen14, 0, 1, fun _ => 14), (.clLen15, 0, 1, fun _ => 15),
   (.clRepPrev, 2, 3, fun s => s.lens.getD (s.clCount - 1) 0),
   (.clRepZeroShort, 3, 3, fun _ => 0), (.clRepZeroLong, 7, 11, fun _ => 0)]

/-- The length symbols with their base and extra-bit count, as the table of R90 lists them. -/
def lengthTable : List (Instr × Nat × Nat) :=
  [(.len257, 3, 0), (.len258, 4, 0), (.len259, 5, 0), (.len260, 6, 0), (.len261, 7, 0),
   (.len262, 8, 0), (.len263, 9, 0), (.len264, 10, 0), (.len265, 11, 1), (.len266, 13, 1),
   (.len267, 15, 1), (.len268, 17, 1), (.len269, 19, 2), (.len270, 23, 2), (.len271, 27, 2),
   (.len272, 31, 2), (.len273, 35, 3), (.len274, 43, 3), (.len275, 51, 3), (.len276, 59, 3),
   (.len277, 67, 4), (.len278, 83, 4), (.len279, 99, 4), (.len280, 115, 4), (.len281, 131, 5),
   (.len282, 163, 5), (.len283, 195, 5), (.len284, 227, 5), (.len285, 258, 0)]

/-- The distance symbols with their base and extra-bit count, as the table of R91 lists them. -/
def distanceTable : List (Instr × Nat × Nat) :=
  [(.dist0, 1, 0), (.dist1, 2, 0), (.dist2, 3, 0), (.dist3, 4, 0), (.dist4, 5, 1),
   (.dist5, 7, 1), (.dist6, 9, 2), (.dist7, 13, 2), (.dist8, 17, 3), (.dist9, 25, 3),
   (.dist10, 33, 4), (.dist11, 49, 4), (.dist12, 65, 5), (.dist13, 97, 5), (.dist14, 129, 6),
   (.dist15, 193, 6), (.dist16, 257, 7), (.dist17, 385, 7), (.dist18, 513, 8), (.dist19, 769, 8),
   (.dist20, 1025, 9), (.dist21, 1537, 9), (.dist22, 2049, 10), (.dist23, 3073, 10), (.dist24, 4097, 11),
   (.dist25, 6145, 11), (.dist26, 8193, 12), (.dist27, 12289, 12), (.dist28, 16385, 13), (.dist29, 24577, 13)]

/-- The symbols that no length or distance is given for (R224, R226). -/
def reservedSymbols : List Instr := [.llReserved286, .llReserved287, .distReserved30, .distReserved31]

/-- The filter types with their predictors (R240, R244 to R248). -/
def filterTypes : List (Instr × (Nat → Nat → Nat → Nat)) :=
  [(.filterNone, fun _ _ _ => 0), (.filterSub, fun a _ _ => a), (.filterUp, fun _ b _ => b),
   (.filterAverage, fun a b _ => (a + b) / 2), (.filterPaeth, fun a b c => paeth a b c)]

/-- The illegal filter-type bytes 5 to 255, by their rows (R103, R249). -/
def reservedFilters (a : BitVec 3) (b : BitVec 4) (c : BitVec 5) (d : BitVec 6) (e : BitVec 7) : List Instr :=
  [.filterReserved5, .filterReserved6, .filterReserved7, .filterReserved8to15 a,
   .filterReserved16to31 b, .filterReserved32to63 c, .filterReserved64to127 d, .filterReserved128to255 e]

/-- The illegal code-length bytes 16 to 255, by their rows (R89, R150). -/
def invalidLengths (b : BitVec 4) (c : BitVec 5) (d : BitVec 6) (e : BitVec 7) : List Instr :=
  [.hblenInvalid16to31 b, .hblenInvalid32to63 c, .hblenInvalid64to127 d, .hblenInvalid128to255 e]

/-- The `n`-bit field of the input at bit `q`, its first bit least significant (R141). -/
def inputField (s : State) (q n : Nat) : Nat := bitsValue (fun i => peekBit s (q + i)) n

/-- Output bytes `lo` to `lo + n − 1`. -/
def outputSlice (s : State) (lo n : Nat) : List Byte := (List.range n).map fun k => outputByte s (lo + k)

/-- The Adler-32 sums after more output bytes (R175). -/
def adlerRun (sums : BitVec 16 × BitVec 16) (bytes : List Byte) : BitVec 16 × BitVec 16 :=
  bytes.foldl (fun (a, b) x => (adlerS1 a x, adlerS2 b (adlerS1 a x))) sums

/-- `t` follows `s` by the output of `n` bytes: `out` counts them, the Adler-32 sums cover them, and memory changes at no
other address (R64, R175). -/
def Emits (s t : State) (n : Nat) : Prop :=
  t.out.toNat = s.out.toNat + n ∧
  (t.s1, t.s2) = adlerRun (s.s1, s.s2) (outputSlice t s.out.toNat n) ∧
  OnlyOutputBytes s t s.out.toNat (s.out.toNat + n)

/-- The neighbours of byte `i` of the row whose bytes begin at output byte `start`, as R242 gives them. -/
def leftOf (t : State) (start i : Nat) : Nat :=
  if t.lat.bpp.toNat ≤ i then (outputByte t (start + i - t.lat.bpp.toNat)).toNat else 0

/-- See `leftOf`; `row` is the row's number. -/
def aboveOf (t : State) (row start i : Nat) : Nat :=
  if 1 ≤ row then (outputByte t (start - t.lat.rowBytes.toNat + i)).toNat else 0

/-- See `leftOf`. -/
def upperLeftOf (t : State) (row start i : Nat) : Nat :=
  if 1 ≤ row ∧ t.lat.bpp.toNat ≤ i then
    (outputByte t (start - t.lat.rowBytes.toNat + i - t.lat.bpp.toNat)).toNat
  else 0

/-- The first `n` bytes of the row that state `s` is about to reverse: output of `u`, each the filtered byte plus the
prediction from the reconstructed neighbours, modulo 256 (R240, R242). -/
def RowReconstructed (s u : State) (pred : Nat → Nat → Nat → Nat) (n : Nat) : Prop :=
  ∀ i < n, outputByte u (s.out.toNat + i) =
    BitVec.ofNat 8 (inputField s (s.p.toNat + 8 * i) 8 +
      pred (leftOf u s.out.toNat i) (aboveOf u s.row s.out.toNat i) (upperLeftOf u s.row s.out.toNat i))

/-- `Filt(F, raw)` of R252 for byte `i` of a row: the raw byte less its prediction, modulo 256. `raw` and `prev` are the
raw bytes of this row and of the row above it, and `hasAbove` says whether there is a row above. -/
def forwardFilter (pred : Nat → Nat → Nat → Nat) (bpp : Nat) (hasAbove : Bool) (raw prev : Nat → Byte) (i : Nat) :
    Byte :=
  let a := if bpp ≤ i then (raw (i - bpp)).toNat else 0
  let b := if hasAbove then (prev i).toNat else 0
  let c := if hasAbove ∧ bpp ≤ i then (prev (i - bpp)).toNat else 0
  raw i - BitVec.ofNat 8 (pred a b c)

/-- `n` decodes with one code table, in order (R153). -/
def decodeSyms (t : CodeTable) : Nat → Act (List Nat)
  | 0 => .pure []
  | n + 1 => (decodeSym t).bind fun sym => (decodeSyms t n).bind fun rest => .pure (sym :: rest)

/-- The first `n` bits of a sequence as a code value, the first bit most significant (R11, R143). -/
def codeValue (bit : Nat → Nat) : Nat → Nat
  | 0 => 0
  | n + 1 => 2 * codeValue bit n + bit n

/-- The input from bit `q` on begins with these bits, all of them inside the input. -/
def InputHas (s : State) (q : Nat) (bits : List Bool) : Prop :=
  q + bits.length ≤ inputBits s ∧ ∀ k < bits.length, peekBit s (q + k) = (bits.getD k false).toNat

/-- Where the bits of a token begin: a stored-block header and the trailer are byte-aligned first (R83, R86). -/
def tokenStart (f : Format) (p : Nat) : Nat :=
  match f with
  | .stored | .trailer => 8 * ((p + 7) / 8)
  | .cmd | .status | .zhdr | .bhdr | .dynHdr | .clSym | .litLen | .dist | .filterRow | .codeLen => p

/-- A table built from lengths that are not over-subscribed, with a code for symbol `v`. -/
def HasCode (t : CodeTable) (v : Nat) : Prop :=
  ∃ lengths, t = CodeTable.build lengths ∧ overSubscribed lengths = false ∧ v < lengths.length ∧
    (lengths.getD v 0).toNat ≠ 0

/-- The symbol of a Huffman-coded token has a code in the table in force; other tokens need none. -/
def TokenCoded (s : State) (f : Format) (v : Nat) : Prop :=
  match f with
  | .clSym => HasCode s.tcl v
  | .litLen => HasCode s.tll v
  | .dist => HasCode s.td v
  | .cmd | .status | .zhdr | .bhdr | .stored | .dynHdr | .trailer | .filterRow | .codeLen => True

/-- The token positions of each command (R170, R240, R150). -/
def phaseOf (op : Nat) (ph : Phase) : Bool :=
  match ph with
  | .idle => false
  | .zlibHeader | .blockHeader | .storedHeader | .dynHeader | .clSymbol | .litLenSymbol | .distSymbol | .trailer =>
    op == 1
  | .rowHeader => op == 2
  | .codeLength => op == 3

/-- A code table of an alphabet of `n` symbols. -/
def CodeTable.sized (t : CodeTable) (n : Nat) : Prop := t.lengths.length = n ∧ t.codes.length = n

/-- What the position in the sequence says of the state: the byte-aligned positions (R24), the running code-length
sequence (R212), the pending match (R223), the row and the symbol reached (R240, R150). -/
def PositionInv (s : State) : Prop :=
  match s.phase with
  | .zlibHeader => s.p = 0 ∧ s.out = 0
  | .clSymbol => 257 ≤ s.hlit ∧ s.hlit ≤ 286 ∧ 1 ≤ s.hdist ∧ s.hdist ≤ 32 ∧ s.clCount < s.hlit + s.hdist
  | .distSymbol => 3 ≤ s.matchLen ∧ s.matchLen ≤ 258
  | .rowHeader =>
    s.row < s.lat.rows.toNat ∧ s.out.toNat = s.row * s.lat.rowBytes.toNat ∧
    s.p.toNat = 8 * (s.row * (1 + s.lat.rowBytes.toNat))
  | .codeLength => s.symIdx < s.lat.nsym.toNat ∧ s.out = 0 ∧ s.p.toNat = 8 * s.symIdx
  | .idle | .blockHeader | .storedHeader | .dynHeader | .litLenSymbol | .trailer => True

/-- The invariant of the machine. -/
structure Inv (s : State) : Prop where
  /-- BUSY is 1 exactly while a token is waited for. -/
  busyPhase : s.busy = true ↔ s.phase ≠ .idle
  /-- While BUSY = 1, DONE = 0, ERR = 0 and CODE = 0 (R31, R34). -/
  busyFlags : s.busy = true → s.done = false ∧ s.errf = false ∧ s.err = .ok
  /-- ERR is set only with an error code (R31). -/
  errCode : s.errf = true → s.err ≠ .ok
  /-- An abort request is held only until completion (R273, R285). -/
  idleNoAbort : s.busy = false → s.abortReq = false
  /-- The reset input is asserted only inside the step in which reset arrives (R310, assumption 9). -/
  resetLow : s.resetIn = false
  /-- A running command's parameters passed R122. -/
  parameters : s.busy = true → checkParameters s.lat = none
  /-- The token waited for belongs to the running command. -/
  position : s.busy = true → phaseOf s.lat.op.toNat s.phase = true
  /-- The bit cursor does not pass the input's end (R25). -/
  cursor : s.p.toNat ≤ inputBits s
  /-- The output does not pass the capacity (R175). -/
  output : s.out.toNat ≤ s.lat.dstCap.toNat
  /-- The Adler-32 sums are reduced (R175). -/
  adler : s.s1.toNat < Config.adlerMod ∧ s.s2.toNat < Config.adlerMod
  /-- BLKHDR.VALID is 1 exactly when a header has been counted (R39). -/
  header : s.hdrvalid = true ↔ s.nblocks ≠ 0
  /-- The code tables and `lens` have their alphabets' sizes (R21, R40). -/
  tables : s.tll.sized Config.nLitLen ∧ s.td.sized Config.nDist ∧ s.tcl.sized Config.nClen ∧
    s.lens.length = Config.nLens
  /-- What the position in the sequence says. -/
  sequence : PositionInv s
  /-- The memory is in canonical form. -/
  memory : Memory.wf s.mem

end Sys2Proof.Machine
end

