-- ==== Sys2Proof/Certificates/Slice0/Obligations.lean ====
section
/-! DEFINITION. The statements for the provers. Each docstring names the rules of the spec it formalises. The field
`phase` and the loop counters beside it are the model's own form of the position in the pseudocode (assumption 6);
a statement that sets them says so by being 'derived'. `Quiet` says that no abort is requested: while one is, every
step boundary may stop the command (AbortStopsAtDrawnBoundary). -/

section

open Sys2Proof Sys2Proof.Machine

/-! ### The host's commands -/

/-- START of a command whose parameters and ranges are admissible (R34, R35, R123 to R125): the registers take the START
values, the parameters are latched, BUSY is set, and nothing else changes. The first token's position is assumption
6; that the ranges are looked at here is assumption 12. -/
def Obligations.StartBeginsCommand : Prop :=
  ∀ (abort ie : Bool) (s : State), s.busy = false →
    ∀ c ∈ startCommands abort ie,
      checkParameters (latchParameters c.2.1 s) = none →
      latchFault s.plat (latchParameters c.2.1 s) = none →
        exec c.1 s = .next
          { s with op := c.2.1, ie := ie, done := false, errf := false, err := .ok, p := 0, out := 0, s1 := 1, s2 := 0,
                   trailer := 0, bfinal := false, btype := 0, hdrvalid := false, nblocks := 0,
                   lat := { op := c.2.1, srcAddr := s.srcAddr, srcLen := s.srcLen, dstAddr := s.dstAddr,
                            dstCap := s.dstCap, rowBytes := s.rowBytes, rows := s.rows, bpp := s.bpp, nsym := s.nsym },
                   busy := true, phase := c.2.2, row := 0, symIdx := 0 }

/-- START of INFLATE, UNFILTER or HUFF_BUILD with illegal parameters completes at once with `InvalidParameter`, with
`p = 0`, `out = 0` and memory unchanged (R121, R122). START with legal parameters on ranges that are not ordinary
memory outside the register block has no step: the model's faults of assumption 12 (R66, R67). -/
def Obligations.StartThatCannotRun : Prop :=
  ∀ (abort ie : Bool) (s : State), s.busy = false →
    ∀ c ∈ startCommands abort ie,
      (checkParameters (latchParameters c.2.1 s) ≠ none →
        exec c.1 s = .next
          { s with op := c.2.1, ie := ie, done := true, errf := true, err := .invalidParameter, p := 0, out := 0,
                   s1 := 1, s2 := 0, trailer := 0, bfinal := false, btype := 0, hdrvalid := false, nblocks := 0,
                   lat := latchParameters c.2.1 s, busy := false, abortReq := false, phase := .idle }) ∧
      ∀ f, checkParameters (latchParameters c.2.1 s) = none →
        latchFault s.plat (latchParameters c.2.1 s) = some f →
          exec c.1 s = .fault f ∧ (f = .registerBlockRange ∨ f = .unbackedMemory)

/-- The parameter check accepts exactly the legal parameters (R122), and in an accepted command no input byte has the
address of an output byte and neither range wraps. -/
def Obligations.ParameterCheckAcceptsExactlyLegal : Prop :=
  (∀ l : Latched, checkParameters l = none ↔
    (l.op = 1 ∨ l.op = 2 ∨ l.op = 3) ∧ l.srcLen.toNat ≤ 2 ^ 29 - 1 ∧
    l.srcAddr.toNat + l.srcLen.toNat ≤ 2 ^ 32 ∧ l.dstAddr.toNat + l.dstCap.toNat ≤ 2 ^ 32 ∧
    ¬(0 < l.srcLen.toNat ∧ 0 < l.dstCap.toNat ∧ l.srcAddr.toNat < l.dstAddr.toNat + l.dstCap.toNat ∧
      l.dstAddr.toNat < l.srcAddr.toNat + l.srcLen.toNat) ∧
    (l.op = 2 → 1 ≤ l.bpp.toNat ∧ l.bpp.toNat ≤ 8 ∧ l.rows ≠ 0 ∧ l.rowBytes ≠ 0) ∧
    (l.op = 3 → 1 ≤ l.nsym.toNat ∧ l.nsym.toNat ≤ 288)) ∧
  ∀ s : State, checkParameters s.lat = none → ∀ j k, j < s.lat.srcLen.toNat → k < s.lat.dstCap.toNat →
    (s.lat.srcAddr + BitVec.ofNat 32 j).toNat = s.lat.srcAddr.toNat + j ∧
    destAddr s k = s.lat.dstAddr.toNat + k ∧ s.lat.srcAddr.toNat + j ≠ s.lat.dstAddr.toNat + k

/-- START with a reserved OP (R126): `InvalidParameter` at once, with OUT_LEN = IN_BITPOS = 0 and ADLER = 1, and memory
unchanged. The frame is that of START and of completion (R28, R34, R35, R273); `phase := .idle` is the model's form of
an engine with no command (assumption 6). -/
def Obligations.ReservedCommandCompletesAtOnce : Prop :=
  ∀ (abort ie : Bool) (s : State), s.busy = false →
    ∀ c ∈ reservedCommands abort ie,
      exec c.1 s = .next
        { s with op := c.2, ie := ie, done := true, errf := true, err := .invalidParameter, p := 0, out := 0, s1 := 1,
                 s2 := 0, trailer := 0, bfinal := false, btype := 0, hdrvalid := false, nblocks := 0,
                 lat := latchParameters c.2 s, busy := false, abortReq := false, phase := .idle }

/-- A CTRL write with START = 1 while BUSY = 1 updates IE and honours ABORT, and changes nothing else (R28). -/
def Obligations.CommandWhileBusyOnlyStoresIeAndAbort : Prop :=
  ∀ (abort ie : Bool) (s : State), s.busy = true →
    (∀ c ∈ startCommands abort ie, exec c.1 s = .next { s with ie := ie, abortReq := s.abortReq || abort }) ∧
    ∀ c ∈ reservedCommands abort ie, exec c.1 s = .next { s with ie := ie, abortReq := s.abortReq || abort }

/-- Abort requests (R127): while busy, every CTRL write with ABORT = 1, whatever START and OP, sets the abort request;
while idle, ABORT is ignored, so that a START is the same with and without it. -/
def Obligations.AbortWriteRequestsOnlyWhileBusy : Prop :=
  ∀ (ie : Bool) (op : BitVec 4) (s : State),
    (s.busy = true →
      exec (.abort ie op) s = .next { s with ie := ie, abortReq := true } ∧
      (∀ c ∈ startCommands true ie, exec c.1 s = .next { s with ie := ie, abortReq := true }) ∧
      ∀ c ∈ reservedCommands true ie, exec c.1 s = .next { s with ie := ie, abortReq := true }) ∧
    (s.busy = false →
      exec (.abort ie op) s = .next { s with ie := ie, op := op } ∧
      (∀ c ∈ (startCommands true ie).zip (startCommands false ie), exec c.1.1 s = exec c.2.1 s) ∧
      ∀ c ∈ (reservedCommands true ie).zip (reservedCommands false ie), exec c.1.1 s = exec c.2.1 s)

/-- A STATUS write clears DONE if bit 1 is 1 and ERR if bit 2 is 1, and changes nothing else, ERRCODE among it; clearing
DONE lowers the interrupt line (R128). -/
def Obligations.StatusClearIsWriteOneToClear : Prop :=
  ∀ (d e : Bool) (s : State), ∃ t, exec (.statusClear d e) s = .next t ∧
    t = { s with done := if d then false else s.done, errf := if e then false else s.errf } ∧
    (d = true → t.irq = false)

/-! ### Framing of INFLATE -/

/-- ZHDR (R174): a header that passes the three tests leads on to the first block header, any other raises
`InvalidZlibHeader`. -/
def Obligations.ZlibHeaderChecked : Prop :=
  ∀ (cmf flg : Byte) (s : State),
    ((cmf.toNat % 16 = 8 ∧ flg.toNat / 32 % 2 = 0 ∧ (cmf.toNat * 256 + flg.toNat) % 31 = 0) →
      exec (.zhdr cmf flg) s = .next { s with phase := .blockHeader }) ∧
    (¬(cmf.toNat % 16 = 8 ∧ flg.toNat / 32 % 2 = 0 ∧ (cmf.toNat * 256 + flg.toNat) % 31 = 0) →
      exec (.zhdr cmf flg) s = .next (s.complete .invalidZlibHeader))

/-- The headers of the three legal block types (R171, R101, R200): the latch takes BFINAL and BTYPE, VALID is set, COUNT
counts up to 0xFFFF, and a fixed block builds its two trees. -/
def Obligations.BlockHeaderLatchesAndDispatches : Prop :=
  ∀ (final : Bool) (s : State),
    (∀ c ∈ bodyBlocks final,
      exec c.1 s = .next
        { s with bfinal := final, btype := c.2.1, hdrvalid := true,
                 nblocks := if s.nblocks = 0xFFFF then 0xFFFF else s.nblocks + 1, phase := c.2.2 }) ∧
    exec (.blockFixed final) s = .next
      { s with bfinal := final, btype := 1, hdrvalid := true,
               nblocks := if s.nblocks = 0xFFFF then 0xFFFF else s.nblocks + 1,
               tll := CodeTable.build fixedLitLen, td := CodeTable.build fixedDist, phase := .litLenSymbol }

/-- BTYPE 3 is latched, and then `InvalidBlockType` completes the command (R171, R173). -/
def Obligations.ReservedBlockTypeRaises : Prop :=
  ∀ (final : Bool) (s : State),
    exec (.blockReserved final) s = .next
      (State.complete .invalidBlockType
        { s with bfinal := final, btype := 3, hdrvalid := true,
                 nblocks := if s.nblocks = 0xFFFF then 0xFFFF else s.nblocks + 1 })

/-- The fixed codes (R94, R95): lengths and codes of every symbol, in the tables that a fixed block builds. -/
def Obligations.FixedCodesAreAsListed : Prop :=
  (∀ final s, ∃ t, exec (.blockFixed final) s = .next t ∧
    t.tll = CodeTable.build fixedLitLen ∧ t.td = CodeTable.build fixedDist) ∧
  ∀ k : Nat,
    (k < 144 → (CodeTable.build fixedLitLen).lengths[k]? = some 8 ∧
      (CodeTable.build fixedLitLen).codes[k]? = some (BitVec.ofNat 15 (0x30 + k))) ∧
    (144 ≤ k ∧ k < 256 → (CodeTable.build fixedLitLen).lengths[k]? = some 9 ∧
      (CodeTable.build fixedLitLen).codes[k]? = some (BitVec.ofNat 15 (0x190 + (k - 144)))) ∧
    (256 ≤ k ∧ k < 280 → (CodeTable.build fixedLitLen).lengths[k]? = some 7 ∧
      (CodeTable.build fixedLitLen).codes[k]? = some (BitVec.ofNat 15 (k - 256))) ∧
    (280 ≤ k ∧ k < 288 → (CodeTable.build fixedLitLen).lengths[k]? = some 8 ∧
      (CodeTable.build fixedLitLen).codes[k]? = some (BitVec.ofNat 15 (0xC0 + (k - 280)))) ∧
    (k < 32 → (CodeTable.build fixedDist).lengths[k]? = some 5 ∧
      (CodeTable.build fixedDist).codes[k]? = some (BitVec.ofNat 15 k))

/-- STORED_LEN with LEN + NLEN = 0xFFFF, all data bytes in the input and room for them (R172, R175): LEN input bytes
become output, and the block ends (R170). -/
def Obligations.StoredBlockCopiesItsBytes : Prop :=
  ∀ (len nlen : BitVec 16) (s : State), len.toNat + nlen.toNat = 0xFFFF → Quiet s → LegalRanges s.lat → Memory.wf s.mem →
    HasBits s (8 * len.toNat) → HasRoom s len.toNat →
      ∃ t, exec (.storedLen len nlen) s = .next t ∧
        t = { s with p := BitVec.ofNat 32 (s.p.toNat + 8 * len.toNat), out := t.out, s1 := t.s1, s2 := t.s2,
                     mem := t.mem, phase := if s.bfinal then .trailer else .blockHeader } ∧
        Emits s t len.toNat ∧
        ∀ k < len.toNat, outputByte t (s.out.toNat + k) = BitVec.ofNat 8 (inputField s (s.p.toNat + 8 * k) 8)

/-- STORED_LEN that cannot complete (R172, R274): a wrong LEN/NLEN pair raises before any data byte; a missing data byte
raises `Truncated` after the bytes before it were copied; a byte past the capacity raises `OutputOverflow` after
the bytes before it were copied and it was read. -/
def Obligations.StoredBlockErrors : Prop :=
  (∀ (len nlen : BitVec 16) (s : State), len.toNat + nlen.toNat ≠ 0xFFFF →
    exec (.storedLen len nlen) s = .next (s.complete .invalidStoredBlock)) ∧
  ∀ (len nlen : BitVec 16) (m : Nat) (s : State), len.toNat + nlen.toNat = 0xFFFF → m < len.toNat → Quiet s →
    LegalRanges s.lat → Memory.wf s.mem → HasBits s (8 * m) → HasRoom s m →
      ((¬HasBits s (8 * (m + 1)) →
        ∃ u, exec (.storedLen len nlen) s = .next (u.complete .truncated) ∧
          u = { s with p := BitVec.ofNat 32 (s.p.toNat + 8 * m), out := u.out, s1 := u.s1, s2 := u.s2, mem := u.mem } ∧
          Emits s u m ∧
          ∀ k < m, outputByte u (s.out.toNat + k) = BitVec.ofNat 8 (inputField s (s.p.toNat + 8 * k) 8)) ∧
       (HasBits s (8 * (m + 1)) → ¬HasRoom s (m + 1) →
        ∃ u, exec (.storedLen len nlen) s = .next (u.complete .outputOverflow) ∧
          u = { s with p := BitVec.ofNat 32 (s.p.toNat + 8 * (m + 1)), out := u.out, s1 := u.s1, s2 := u.s2,
                       mem := u.mem } ∧
          Emits s u m ∧
          ∀ k < m, outputByte u (s.out.toNat + k) = BitVec.ofNat 8 (inputField s (s.p.toNat + 8 * k) 8)))

/-- TRAILER (R178): the value is recorded, and the command completes with OK when it is `s2·65536 + s1`, otherwise with
`ChecksumMismatch`. -/
def Obligations.TrailerChecked : Prop :=
  ∀ (a : Word) (s : State),
    (a.toNat = s.s2.toNat * 65536 + s.s1.toNat →
      exec (.trailer a) s = .next (State.complete .ok { s with trailer := a })) ∧
    (a.toNat ≠ s.s2.toNat * 65536 + s.s1.toNat →
      exec (.trailer a) s = .next (State.complete .checksumMismatch { s with trailer := a }))

/-! ### The header of a dynamic block -/

/-- The i-th 3-bit value is the length of code-length symbol `CLORDER[i]`, and the symbols past the last value have
length 0 (R92). -/
def Obligations.CodeLengthOrderPlacesValues : Prop :=
  ∀ values : List Nat, values.length ≤ 19 → (∀ v ∈ values, v < 8) → ∀ i < 19,
    ((codeLengthLengths values).getD
      ([16, 17, 18, 0, 8, 7, 9, 6, 10, 5, 11, 4, 12, 3, 13, 2, 14, 1, 15].getD i 0) 0).toNat = values.getD i 0

/-- DYNHDR with HLIT at most 286 (R210, R211): the code-length code is read, and its table is built unless it is
over-subscribed; then the code-length sequence begins at `n = 0` (R212). -/
def Obligations.DynHeaderReadsCodeLengthCode : Prop :=
  ∀ (hlit hdist : BitVec 5) (hclen : BitVec 4) (s : State), hlit.toNat + 257 ≤ 286 → Quiet s →
    s.lat.srcLen.toNat ≤ Config.srcLenMax → HasBits s (3 * (hclen.toNat + 4)) →
    let cl := codeLengthLengths ((List.range (hclen.toNat + 4)).map fun i => inputField s (s.p.toNat + 3 * i) 3)
    let q := BitVec.ofNat 32 (s.p.toNat + 3 * (hclen.toNat + 4))
    (kraft cl ≤ 2 ^ 15 →
      exec (.dynHdr hlit hdist hclen) s = .next
        { s with p := q, tcl := CodeTable.build cl, hlit := hlit.toNat + 257, hdist := hdist.toNat + 1, clCount := 0,
                 phase := .clSymbol }) ∧
    (2 ^ 15 < kraft cl →
      exec (.dynHdr hlit hdist hclen) s = .next (State.complete .invalidDynamicBlock { s with p := q }))

/-- DYNHDR that cannot read its code-length code (R210, R211): HLIT above 286 is refused with nothing more read, and a
missing 3-bit value raises `Truncated` after the values before it. -/
def Obligations.DynHeaderErrors : Prop :=
  ∀ (hlit hdist : BitVec 5) (hclen : BitVec 4) (s : State),
    (286 < hlit.toNat + 257 → exec (.dynHdr hlit hdist hclen) s = .next (s.complete .invalidDynamicBlock)) ∧
    ∀ m, hlit.toNat + 257 ≤ 286 → Quiet s → s.lat.srcLen.toNat ≤ Config.srcLenMax → m < hclen.toNat + 4 →
      HasBits s (3 * m) → ¬HasBits s (3 * (m + 1)) →
        exec (.dynHdr hlit hdist hclen) s =
          .next (State.complete .truncated { s with p := BitVec.ofNat 32 (s.p.toNat + 3 * m) })

/-- A code-length symbol whose run does not reach the end of the sequence (R213 to R216): its extra bits are read, it
writes its length to the next entries of `lens`, and `n` counts them. -/
def Obligations.CodeLengthRunsFillLengths : Prop :=
  ∀ (s : State), Quiet s → s.lat.srcLen.toNat ≤ Config.srcLenMax → s.hlit + s.hdist ≤ s.lens.length →
    ∀ c ∈ codeLengthRuns, (c.1 = .clRepPrev → 0 < s.clCount) → HasBits s c.2.1 →
      let r := c.2.2.1 + inputField s s.p.toNat c.2.1
      s.clCount + r < s.hlit + s.hdist →
        ∃ t, exec c.1 s = .next t ∧
          t = { s with p := BitVec.ofNat 32 (s.p.toNat + c.2.1), lens := t.lens, clCount := s.clCount + r } ∧
          t.lens.length = s.lens.length ∧
          ∀ j < s.lens.length, t.lens.getD j 0 =
            if s.clCount ≤ j ∧ j < s.clCount + r then c.2.2.2 s else s.lens.getD j 0

/-- The errors of the code-length symbols (R214 to R216): symbol 16 with no previous length, a run past `total`, and
missing extra bits. -/
def Obligations.CodeLengthRunErrors : Prop :=
  ∀ (s : State), Quiet s →
    (s.clCount = 0 → exec .clRepPrev s = .next (s.complete .invalidDynamicBlock)) ∧
    ∀ c ∈ codeLengthRuns, 0 < c.2.1 → (c.1 = .clRepPrev → 0 < s.clCount) →
      (¬HasBits s c.2.1 → exec c.1 s = .next (s.complete .truncated)) ∧
      (HasBits s c.2.1 → s.hlit + s.hdist < s.clCount + (c.2.2.1 + inputField s s.p.toNat c.2.1) →
        exec c.1 s = .next
          (State.complete .invalidDynamicBlock { s with p := BitVec.ofNat 32 (s.p.toNat + c.2.1) }))

/-- The code-length symbol whose run reaches `total` (R212, R217): with a code for symbol 256 and no over-subscribed set
the two trees are built and the symbols follow, otherwise `InvalidDynamicBlock` is raised. -/
def Obligations.LastLengthBuildsTrees : Prop :=
  ∀ (s : State), Quiet s → s.lat.srcLen.toNat ≤ Config.srcLenMax → s.hlit + s.hdist ≤ s.lens.length →
    257 ≤ s.hlit → s.hlit ≤ 286 → 1 ≤ s.hdist → s.hdist ≤ 32 →
    ∀ c ∈ codeLengthRuns, (c.1 = .clRepPrev → 0 < s.clCount) → HasBits s c.2.1 →
      let r := c.2.2.1 + inputField s s.p.toNat c.2.1
      s.clCount + r = s.hlit + s.hdist →
        ∃ lens : List (BitVec 4), lens.length = s.lens.length ∧
          (∀ j < s.lens.length, lens.getD j 0 =
            if s.clCount ≤ j ∧ j < s.clCount + r then c.2.2.2 s else s.lens.getD j 0) ∧
          let ll := lens.take s.hlit ++ List.replicate (288 - s.hlit) 0
          let dd := (lens.drop s.hlit).take s.hdist ++ List.replicate (32 - s.hdist) 0
          let u := { s with p := BitVec.ofNat 32 (s.p.toNat + c.2.1), lens := lens, clCount := s.clCount + r }
          ((ll.getD 256 0 ≠ 0 ∧ kraft ll ≤ 2 ^ 15 ∧ kraft dd ≤ 2 ^ 15) →
            exec c.1 s = .next
              { u with tll := CodeTable.build ll, td := CodeTable.build dd, phase := .litLenSymbol }) ∧
          (¬(ll.getD 256 0 ≠ 0 ∧ kraft ll ≤ 2 ^ 15 ∧ kraft dd ≤ 2 ^ 15) →
            exec c.1 s = .next (u.complete .invalidDynamicBlock))

/-! ### The symbols of a Huffman block -/

/-- LIT (R221, R175): with room, its byte is the next output byte, at `L.DST_ADDR + out`, and every other address reads
as before; without room, `OutputOverflow` and nothing else. -/
def Obligations.LiteralEmitsItsByte : Prop :=
  ∀ (b : Byte) (s : State), Quiet s →
    (s.out.toNat < s.lat.dstCap.toNat → Memory.wf s.mem →
      ∃ t, exec (.lit b) s = .next t ∧
        t = { s with mem := t.mem, out := s.out + 1, s1 := BitVec.ofNat 16 ((s.s1.toNat + b.toNat) % 65521),
                     s2 := BitVec.ofNat 16 ((s.s2.toNat + (s.s1.toNat + b.toNat) % 65521) % 65521) } ∧
        memRead t.mem (s.lat.dstAddr + s.out).toNat = b ∧
        ∀ a ≠ (s.lat.dstAddr + s.out).toNat, memRead t.mem a = memRead s.mem a) ∧
    (s.lat.dstCap.toNat ≤ s.out.toNat → exec (.lit b) s = .next (s.complete .outputOverflow))

/-- EOB (R222, R170): the trailer follows a final block, another block header follows any other. -/
def Obligations.EndOfBlockMovesOn : Prop :=
  ∀ s : State,
    (s.bfinal = true → exec .eob s = .next { s with phase := .trailer }) ∧
    (s.bfinal = false → exec .eob s = .next { s with phase := .blockHeader })

/-- Every length symbol gives its base plus its extra bits (R90, R223); with the extra bits missing it raises
`Truncated`. -/
def Obligations.LengthSymbolGivesLength : Prop :=
  ∀ (s : State), Quiet s → ∀ e ∈ lengthTable,
    (HasBits s e.2.2 →
      exec e.1 s = .next
        { s with p := BitVec.ofNat 32 (s.p.toNat + e.2.2), matchLen := e.2.1 + inputField s s.p.toNat e.2.2,
                 phase := .distSymbol }) ∧
    (¬HasBits s e.2.2 → exec e.1 s = .next (s.complete .truncated))

/-- The illegal symbols 286 and 287 and the illegal distance symbols 30 and 31 raise `InvalidHuffmanSymbol`, always, and
do nothing else (R224, R226). -/
def Obligations.ReservedSymbolsRaise : Prop :=
  ∀ (s : State), ∀ i ∈ reservedSymbols, exec i s = .next (s.complete .invalidHuffmanSymbol)

/-- A distance symbol whose distance lies inside the output and whose match fits (R91, R227, R231): the match repeats the
last `dist` output bytes periodically. -/
def Obligations.MatchRepeatsItsPeriod : Prop :=
  ∀ (s : State), Quiet s → LegalRanges s.lat → Memory.wf s.mem → ∀ e ∈ distanceTable, HasBits s e.2.2 →
    let dist := e.2.1 + inputField s s.p.toNat e.2.2
    dist ≤ s.out.toNat → HasRoom s s.matchLen →
      ∃ t, exec e.1 s = .next t ∧
        t = { s with p := BitVec.ofNat 32 (s.p.toNat + e.2.2), out := t.out, s1 := t.s1, s2 := t.s2, mem := t.mem,
                     phase := .litLenSymbol } ∧
        Emits s t s.matchLen ∧
        ∀ i < s.matchLen, outputByte t (s.out.toNat + i) = outputByte s (s.out.toNat - dist + i % dist)

/-- The errors of a distance symbol, in the order of R232: missing extra bits; a distance beyond the output, before any
byte is copied; a byte past the capacity, with the bytes before it written as the match gives them. -/
def Obligations.MatchErrors : Prop :=
  ∀ (s : State), Quiet s → ∀ e ∈ distanceTable,
    (¬HasBits s e.2.2 → exec e.1 s = .next (s.complete .truncated)) ∧
    (HasBits s e.2.2 →
      let dist := e.2.1 + inputField s s.p.toNat e.2.2
      let u := { s with p := BitVec.ofNat 32 (s.p.toNat + e.2.2) }
      (s.out.toNat < dist → exec e.1 s = .next (u.complete .distanceOutOfRange)) ∧
      (dist ≤ s.out.toNat → LegalRanges s.lat → Memory.wf s.mem → s.out.toNat ≤ s.lat.dstCap.toNat →
        ¬HasRoom s s.matchLen →
        ∃ v, exec e.1 s = .next (v.complete .outputOverflow) ∧
          v = { u with out := s.lat.dstCap, s1 := v.s1, s2 := v.s2, mem := v.mem } ∧
          Emits s v (s.lat.dstCap.toNat - s.out.toNat) ∧
          ∀ i < s.lat.dstCap.toNat - s.out.toNat,
            outputByte v (s.out.toNat + i) = outputByte s (s.out.toNat - dist + i % dist)))

/-! ### UNFILTER -/

/-- A row of filter type 0 to 4 with all its bytes in the input and room for them (R240, R242, R244 to R248): each byte is
the filtered byte plus the prediction from the reconstructed neighbours, modulo 256; the last row completes the
command. -/
def Obligations.FilterRowReconstructs : Prop :=
  ∀ (s : State), Quiet s → LegalRanges s.lat → Memory.wf s.mem → 1 ≤ s.lat.bpp.toNat →
    (1 ≤ s.row → s.lat.rowBytes.toNat ≤ s.out.toNat) → HasBits s (8 * s.lat.rowBytes.toNat) →
    HasRoom s s.lat.rowBytes.toNat → ∀ e ∈ filterTypes,
      ∃ u, exec e.1 s = .next
          (if s.row + 1 < s.lat.rows.toNat then { u with phase := .rowHeader } else u.complete .ok) ∧
        u = { s with p := BitVec.ofNat 32 (s.p.toNat + 8 * s.lat.rowBytes.toNat), out := u.out, s1 := u.s1, s2 := u.s2,
                     mem := u.mem, row := s.row + 1 } ∧
        Emits s u s.lat.rowBytes.toNat ∧
        RowReconstructed s u e.2 s.lat.rowBytes.toNat

/-- A row of filter type 0 to 4 that cannot complete (R240, R244 to R248, R274): a missing filtered byte raises
`Truncated`, a byte past the capacity raises `OutputOverflow` once its filtered byte is read; the bytes before it
are reconstructed and stay. -/
def Obligations.FilterRowErrors : Prop :=
  ∀ (m : Nat) (s : State), Quiet s → LegalRanges s.lat → Memory.wf s.mem → 1 ≤ s.lat.bpp.toNat →
    (1 ≤ s.row → s.lat.rowBytes.toNat ≤ s.out.toNat) → m < s.lat.rowBytes.toNat → HasBits s (8 * m) → HasRoom s m →
    ∀ e ∈ filterTypes,
      (¬HasBits s (8 * (m + 1)) →
        ∃ u, exec e.1 s = .next (u.complete .truncated) ∧
          u = { s with p := BitVec.ofNat 32 (s.p.toNat + 8 * m), out := u.out, s1 := u.s1, s2 := u.s2, mem := u.mem } ∧
          Emits s u m ∧ RowReconstructed s u e.2 m) ∧
      (HasBits s (8 * (m + 1)) → ¬HasRoom s (m + 1) →
        ∃ u, exec e.1 s = .next (u.complete .outputOverflow) ∧
          u = { s with p := BitVec.ofNat 32 (s.p.toNat + 8 * (m + 1)), out := u.out, s1 := u.s1, s2 := u.s2,
                       mem := u.mem } ∧
          Emits s u m ∧ RowReconstructed s u e.2 m)

/-- Every illegal filter type raises `InvalidFilterType` before any byte of the row is read or written (R241, R249). -/
def Obligations.ReservedFilterRaises : Prop :=
  ∀ (a : BitVec 3) (b : BitVec 4) (c : BitVec 5) (d : BitVec 6) (e : BitVec 7) (s : State),
    ∀ i ∈ reservedFilters a b c d e, exec i s = .next (s.complete .invalidFilterType)

/-- The filter round trip on a row, both compositions (R252): reversing a forward-filtered row gives the raw row, and
forward filtering a reversed row gives the filtered row. -/
def Obligations.FilterRoundTrip : Prop :=
  ∀ (s : State), Quiet s → LegalRanges s.lat → Memory.wf s.mem → 1 ≤ s.lat.bpp.toNat →
    (1 ≤ s.row → s.lat.rowBytes.toNat ≤ s.out.toNat) → HasBits s (8 * s.lat.rowBytes.toNat) →
    HasRoom s s.lat.rowBytes.toNat → ∀ e ∈ filterTypes,
      let filt := fun i => BitVec.ofNat 8 (inputField s (s.p.toNat + 8 * i) 8)
      let above := fun i => outputByte s (s.out.toNat - s.lat.rowBytes.toNat + i)
      ∃ t, exec e.1 s = .next t ∧
        (∀ raw : Nat → Byte,
          (∀ i < s.lat.rowBytes.toNat,
            filt i = forwardFilter e.2 s.lat.bpp.toNat (decide (1 ≤ s.row)) raw above i) →
          ∀ i < s.lat.rowBytes.toNat, outputByte t (s.out.toNat + i) = raw i) ∧
        ∀ i < s.lat.rowBytes.toNat,
          forwardFilter e.2 s.lat.bpp.toNat (decide (1 ≤ s.row)) (fun j => outputByte t (s.out.toNat + j)) above i =
            filt i

/-- The Paeth predictor picks whichever of a, b, c is nearest to `a + b − c`, ties broken in that order (R243). -/
def Obligations.PaethPicksNearest : Prop :=
  ∀ a b c : Nat,
    let dist := fun x : Nat => ((a : Int) + b - c - x).natAbs
    (dist a ≤ dist b ∧ dist a ≤ dist c → paeth a b c = a) ∧
    (¬(dist a ≤ dist b ∧ dist a ≤ dist c) ∧ dist b ≤ dist c → paeth a b c = b) ∧
    (¬(dist a ≤ dist b ∧ dist a ≤ dist c) ∧ dist c < dist b → paeth a b c = c) ∧
    dist (paeth a b c) ≤ dist a ∧ dist (paeth a b c) ≤ dist b ∧ dist (paeth a b c) ≤ dist c

/-! ### HUFF_BUILD -/

/-- A code-length byte 0 to 15 that is not the last is stored, and the next one follows (R150). -/
def Obligations.LengthByteStored : Prop :=
  ∀ (len : BitVec 4) (s : State), s.symIdx + 1 < s.lat.nsym.toNat →
    exec (.hblen len) s = .next { s with lens := s.lens.set s.symIdx len, symIdx := s.symIdx + 1 }

/-- The last code-length byte of a set that is not over-subscribed (R150, R151): the canonical code is written out, four
bytes for each symbol, and the command completes. -/
def Obligations.HuffBuildWritesCodes : Prop :=
  ∀ (len : BitVec 4) (s : State), s.symIdx + 1 = s.lat.nsym.toNat → Quiet s → LegalRanges s.lat → Memory.wf s.mem →
    s.lat.nsym.toNat ≤ s.lens.length → HasRoom s (4 * s.lat.nsym.toNat) →
    let lens := s.lens.set s.symIdx len
    let lengths := lens.take s.lat.nsym.toNat
    kraft lengths ≤ 2 ^ 15 →
      ∃ u, exec (.hblen len) s = .next (u.complete .ok) ∧
        u = { s with lens := lens, symIdx := s.symIdx + 1, thb := CodeTable.build lengths, out := u.out, s1 := u.s1,
                     s2 := u.s2, mem := u.mem } ∧
        Emits s u (4 * s.lat.nsym.toNat) ∧
        ∀ k < s.lat.nsym.toNat,
          (wordOfBytes (outputSlice u (s.out.toNat + 4 * k) 4)).toNat =
            if (lengths.getD k 0).toNat = 0 then 0
            else (canonical lengths).getD k 0 + (lengths.getD k 0).toNat * 65536

/-- The errors of HUFF_BUILD's bytes (R89, R145, R150, R151, R274): a byte above 15; an over-subscribed set after the last
byte, before any output; and words that pass the capacity, with every byte below it written as its word has it. -/
def Obligations.HuffBuildErrors : Prop :=
  (∀ (b : BitVec 4) (c : BitVec 5) (d : BitVec 6) (e : BitVec 7) (s : State),
    ∀ i ∈ invalidLengths b c d e, exec i s = .next (s.complete .invalidParameter)) ∧
  (∀ (len : BitVec 4) (s : State), s.lat.nsym.toNat ≤ s.symIdx + 1 →
    2 ^ 15 < kraft ((s.lens.set s.symIdx len).take s.lat.nsym.toNat) →
      exec (.hblen len) s = .next
        (State.complete .invalidDynamicBlock { s with lens := s.lens.set s.symIdx len, symIdx := s.symIdx + 1 })) ∧
  ∀ (len : BitVec 4) (s : State), s.lat.nsym.toNat ≤ s.symIdx + 1 → Quiet s → LegalRanges s.lat → Memory.wf s.mem →
    s.lat.nsym.toNat ≤ s.lens.length → s.out.toNat ≤ s.lat.dstCap.toNat → ¬HasRoom s (4 * s.lat.nsym.toNat) →
    let lens := s.lens.set s.symIdx len
    let lengths := lens.take s.lat.nsym.toNat
    kraft lengths ≤ 2 ^ 15 →
      ∃ u, exec (.hblen len) s = .next (u.complete .outputOverflow) ∧
        u = { s with lens := lens, symIdx := s.symIdx + 1, thb := CodeTable.build lengths, out := s.lat.dstCap,
                     s1 := u.s1, s2 := u.s2, mem := u.mem } ∧
        Emits s u (s.lat.dstCap.toNat - s.out.toNat) ∧
        ∀ j < s.lat.dstCap.toNat - s.out.toNat,
          (outputByte u (s.out.toNat + j)).toNat =
            (if (lengths.getD (j / 4) 0).toNat = 0 then 0
             else (canonical lengths).getD (j / 4) 0 + (lengths.getD (j / 4) 0).toNat * 65536) / 256 ^ (j % 4) % 256

/-! ### Huffman codes -/

/-- The canonical construction (R144): the first code of each length is twice the sum of the first code and the count of
the length before, and a symbol's code is the first code of its length plus the number of earlier symbols of that
length. -/
def Obligations.CanonicalCodesAreConsecutive : Prop :=
  ∀ lengths : List (BitVec 4), (canonical lengths).length = lengths.length ∧
    firstCode lengths 1 = 0 ∧
    (∀ len, 2 ≤ len → firstCode lengths len =
      2 * (firstCode lengths (len - 1) + lengths.countP fun l => l.toNat == len - 1)) ∧
    ∀ sym < lengths.length,
      (canonical lengths).getD sym 0 =
        if (lengths.getD sym 0).toNat = 0 then 0
        else firstCode lengths (lengths.getD sym 0).toNat +
          (lengths.take sym).countP fun l => l == lengths.getD sym 0

/-- The prefix property (R152): with `K ≤ 2^15` every code fits its length, and no code is a prefix of another. -/
def Obligations.CanonicalCodesArePrefixFree : Prop :=
  ∀ lengths : List (BitVec 4), kraft lengths ≤ 2 ^ 15 →
    (∀ a < lengths.length, 0 < (lengths.getD a 0).toNat →
      (canonical lengths).getD a 0 < 2 ^ (lengths.getD a 0).toNat) ∧
    ∀ a < lengths.length, ∀ b < lengths.length, a ≠ b → 0 < (lengths.getD a 0).toNat →
      (lengths.getD a 0).toNat ≤ (lengths.getD b 0).toNat →
        (canonical lengths).getD b 0 / 2 ^ ((lengths.getD b 0).toNat - (lengths.getD a 0).toNat) ≠
          (canonical lengths).getD a 0

/-- The Huffman round trip (R153): the codes of any sequence of symbols, written one after another, decode to the symbols
in order. -/
def Obligations.HuffmanSequenceRoundTrip : Prop :=
  ∀ (lengths : List (BitVec 4)) (syms : List Nat) (s : State), kraft lengths ≤ 2 ^ 15 →
    (∀ x ∈ syms, x < lengths.length ∧ 0 < (lengths.getD x 0).toNat) → Quiet s →
    s.lat.srcLen.toNat ≤ Config.srcLenMax →
    let bits := syms.flatMap (symbolBits (CodeTable.build lengths))
    InputHas s s.p.toNat bits →
      decodeSyms (CodeTable.build lengths) syms.length s =
        .ok syms { s with p := BitVec.ofNat 32 (s.p.toNat + bits.length) }

/-- The two-level lookup table decodes as the search through the codes does (R148): for every sequence of bits the same
symbol and code length or the same miss, and in every state the same symbol and new `p` or the same error. -/
def Obligations.LookupTableAgrees : Prop :=
  ∀ lengths : List (BitVec 4), kraft lengths ≤ 2 ^ 15 →
    (∀ bit : Nat → Nat, (∀ i, bit i ≤ 1) →
      (CodeTable.build lengths).lookup bit = (CodeTable.build lengths).decode bit) ∧
    ∀ s : State, tableSym (CodeTable.build lengths) s = decodeSym (CodeTable.build lengths) s

/-! ### Encodings, fetching and the step -/

/-- Every instruction's encoding decodes to it, with every operand (R80 to R89, R100 to R103). -/
def Obligations.DecodeOfEncode : Prop :=
  ∀ i : Instr, decode (encode i).1 (encode i).2 = .ok i

/-- A value that decodes is the encoding of what it decodes to, up to the bits a CTRL or STATUS write ignores (R80, R104,
R128). -/
def Obligations.DecodedValueIsEncoded : Prop :=
  ∀ (f : Format) (v : Nat) (i : Instr), decode f v = .ok i →
    encode i = (f, match f with
      | .cmd => v % 8 + 16 * (v / 16 % 16)
      | .status => 2 * (v / 2 % 4)
      | .zhdr | .bhdr | .stored | .dynHdr | .clSym | .litLen | .dist | .trailer | .filterRow | .codeLen => v)

/-- The bits that the token notation gives a token (R106) are fetched as the token's value, and the bit cursor moves past
them (R81 to R89, R141 to R143). -/
def Obligations.AssembledTokenIsFetched : Prop :=
  ∀ (f : Format) (v : Nat) (i : Instr) (s : State), f ≠ .cmd → f ≠ .status → decode f v = .ok i → Quiet s →
    s.lat.srcLen.toNat ≤ Config.srcLenMax → TokenCoded s f v →
    let bits := tokenBits s.tcl s.tll s.td f v
    let q := tokenStart f s.p.toNat
    InputHas s q bits →
      fetchValue f s = .ok v { s with p := BitVec.ofNat 32 (q + bits.length) }

/-- Words written out from the encodings of R80 to R103 decode to their instructions. -/
def Obligations.SpecWordsDecode : Prop :=
  decode .cmd 0b00010101 = .ok (.inflate false true) ∧
  decode .cmd 0b00100001 = .ok (.unfilter false false) ∧
  decode .cmd 0b00000010 = .ok (.abort false 0) ∧
  decode .status 0b110 = .ok (.statusClear true true) ∧
  decode .zhdr 0x789C = .ok (.zhdr 0x78 0x9C) ∧
  decode .bhdr 0b011 = .ok (.blockFixed true) ∧
  decode .bhdr 0b101 = .ok (.blockDynamic true) ∧
  decode .stored 0xFFFD0002 = .ok (.storedLen 2 0xFFFD) ∧
  decode .dynHdr (23 + 32 * 0 + 1024 * 15) = .ok (.dynHdr 23 0 15) ∧
  decode .clSym 17 = .ok .clRepZeroShort ∧
  decode .litLen 0x41 = .ok (.lit 0x41) ∧
  decode .litLen 269 = .ok .len269 ∧
  decode .dist 30 = .ok .distReserved30 ∧
  decode .trailer 0x024D0127 = .ok (.trailer 0x024D0127) ∧
  decode .filterRow 4 = .ok .filterPaeth ∧
  decode .codeLen 15 = .ok (.hblen 15)

/-- When the engine's turn comes in a running command (assumption 1), a step fetches the token the position calls for and
runs the instruction it decodes to; an error of the fetch completes the command; an idle engine does nothing
(R105, R121, R272, R292). A host action still waiting counts one step down. -/
def Obligations.StepRunsFetchedToken : Prop :=
  ∀ (s : State) (rest : List HostItem) (k : Nat) (act : HostAct),
    (s.host = [] → s.busy = false → step s = .next s) ∧
    ∀ f, s.busy = true → s.phase.format = some f →
      (∀ v t i, fetchValue f s = .ok v t → decode f v = .ok i →
        (s.host = [] → step s = exec i t) ∧
        step { s with host := ⟨k + 1, act⟩ :: rest } = engineStep { s with host := ⟨k, act⟩ :: rest } ∧
        engineStep s = exec i t) ∧
      (∀ e t, fetchValue f s = .raised e t → s.host = [] → step s = .next (t.complete e))

/-- When a host write to CTRL or STATUS comes up, a step decodes the written word and runs its instruction; a CTRL word
with neither START nor ABORT stores OP and IE while idle, and IE alone while busy (R28, R120, R128). -/
def Obligations.StepRunsHostWrite : Prop :=
  ∀ (s : State) (rest : List HostItem) (w : Word), s.plat.regBase.toNat + 64 ≤ 2 ^ 32 →
    (s.host = ⟨0, .write s.plat.regBase (wordBytes w)⟩ :: rest →
      (∀ i, decode .cmd w.toNat = .ok i → step s = exec i { s with host := rest }) ∧
      (w.getLsbD 0 = false → w.getLsbD 1 = false →
        (s.busy = true → step s = .next { s with host := rest, ie := w.getLsbD 2 }) ∧
        (s.busy = false → step s = .next { s with host := rest, ie := w.getLsbD 2, op := w.extractLsb' 4 4 }))) ∧
    (s.host = ⟨0, .write (s.plat.regBase + 4) (wordBytes w)⟩ :: rest →
      step s = exec (.statusClear (w.getLsbD 1) (w.getLsbD 2)) { s with host := rest })

/-- ReadBits takes the next n bits, the first least significant, and moves the cursor past them; where fewer remain it
raises `Truncated` with the cursor unchanged (R141). -/
def Obligations.ReadBitsIsLsbFirst : Prop :=
  ∀ (s : State) (n : Nat), Quiet s → s.lat.srcLen.toNat ≤ Config.srcLenMax →
    (s.p.toNat + n ≤ 8 * s.lat.srcLen.toNat →
      ∃ t, readBits n s = .ok (∑ i ∈ Finset.range n, peekBit s (s.p.toNat + i) * 2 ^ i) t ∧
        t.p.toNat = s.p.toNat + n ∧ t = { s with p := t.p }) ∧
    (8 * s.lat.srcLen.toNat < s.p.toNat + n → readBits n s = .raised .truncated s)

/-- DecodeSym takes the shortest code of the table that the next bits begin with, the first bit most significant; a code
that reaches past the input raises `Truncated`, and bits that match no code raise `InvalidHuffmanSymbol`, both with
the cursor unchanged (R143). -/
def Obligations.DecodeSymTakesTheMatchingCode : Prop :=
  ∀ (s : State) (t : CodeTable), Quiet s →
    let value := fun len => ∑ i ∈ Finset.range len, peekBit s (s.p.toNat + i) * 2 ^ (len - 1 - i)
    (∀ len sym, 1 ≤ len → len ≤ 15 → t.symbol len (value len) = some sym →
      (∀ k, 1 ≤ k → k < len → t.symbol k (value k) = none) →
        (s.p.toNat + len ≤ 8 * s.lat.srcLen.toNat →
          decodeSym t s = .ok sym { s with p := BitVec.ofNat 32 (s.p.toNat + len) }) ∧
        (8 * s.lat.srcLen.toNat < s.p.toNat + len → decodeSym t s = .raised .truncated s)) ∧
    ((∀ k, 1 ≤ k → k ≤ 15 → t.symbol k (value k) = none) → decodeSym t s = .raised .invalidHuffmanSymbol s)

/-! ### The whole machine -/

/-- The state after reset meets the invariant. -/
def Obligations.ResetSatisfiesInvariant : Prop := Inv State.reset

/-- Every step keeps the invariant, from every state that meets it. -/
def Obligations.StepKeepsInvariant : Prop :=
  ∀ s t : State, Inv s → step s = .next t → Inv t

/-- The engine always has a step: no step is refused, and a running command that the host leaves alone goes on to a next
state (R14, R121, R271). -/
def Obligations.EngineAlwaysSteps : Prop :=
  ∀ s : State, Inv s →
    (∀ r, step s ≠ .refused r) ∧ (s.busy = true → ∃ t, engineStep s = .next t) ∧
    (s.host = [] → ∃ t, step s = .next t)

/-- Every command completes: left alone by the host, a running command has completed after at most one step more than
the input bits that remain, since every token but the last takes a bit (R321). A step is the model's: one token
(assumption 1). -/
def Obligations.EveryCommandCompletes : Prop :=
  ∀ s : State, Inv s → s.busy = true → s.host = [] →
    ∃ k ≤ inputBits s - s.p.toNat + 1, ∃ t,
      Host.Core.run Sys2Proof.core k s = .next t ∧ t.busy = false ∧ t.done = true

/-- The engine writes memory only at new output bytes: byte `k` of the output at `L.DST_ADDR + k`, in order, and never at
`k ≥ L.DST_CAP` (R64, R65). -/
def Obligations.EngineWritesOnlyNewOutput : Prop :=
  ∀ s t : State, Inv s → s.busy = true → engineStep s = .next t →
    s.out.toNat ≤ t.out.toNat ∧ t.out.toNat ≤ s.lat.dstCap.toNat ∧ s.p.toNat ≤ t.p.toNat ∧
    OnlyOutputBytes s t s.out.toNat t.out.toNat

/-- The engine leaves the host's side of the state alone: CTRL's stored fields, the parameter registers, the latched
parameters, the platform and the host (R21, R35). -/
def Obligations.EngineLeavesHostSide : Prop :=
  ∀ s t : State, engineStep s = .next t → SameHostSide s t

/-- A token of a running command leaves the command running with DONE = ERR = 0 and CODE = 0, or completes it with
DONE = 1, with ERR = 1 exactly when CODE is not 0, and with the abort request cleared (R31, R273). -/
def Obligations.TokenEndsOrGoesOn : Prop :=
  ∀ s t : State, Inv s → s.busy = true → engineStep s = .next t →
    (t.busy = true ∧ t.done = false ∧ t.errf = false ∧ t.err.code = 0 ∧ t.abortReq = s.abortReq) ∨
    (t.busy = false ∧ t.done = true ∧ (t.errf = true ↔ t.err.code ≠ 0) ∧ t.abortReq = false)

/-- Abort (R285). With no request no token ends in `Aborted`. With a request, and a draw that picks the boundary before
the next token, the command ends there. A token ends in `Aborted` only with a request, at a boundary that its draw
picked, and never before the command's first primitive, which leaves `p = 8` (assumption 24). A token that does not
end in `Aborted` under a request met no picked boundary and does what it does without one; its completion, if it
completes, stands and discards the request. The draws are free values (assumption 7). -/
def Obligations.AbortStopsAtDrawnBoundary : Prop :=
  (∀ s t : State, Quiet s → s.err ≠ .aborted → engineStep s = .next t → t.err ≠ .aborted) ∧
  (∀ s : State, s.phase ≠ .idle → s.p ≠ 0 → s.abortReq = true → Config.abortPoint s.draws = true →
    engineStep s = .next (State.complete .aborted { s with draws := s.draws + 1 })) ∧
  (∀ s t : State, s.err ≠ .aborted → engineStep s = .next t → t.err = .aborted →
    s.abortReq = true ∧ t.p ≠ 0 ∧ ∃ k, s.draws ≤ k ∧ k < t.draws ∧ Config.abortPoint k = true) ∧
  ∀ s t : State, s.abortReq = true → engineStep s = .next t → t.err ≠ .aborted →
    (∀ k, s.draws ≤ k → k < t.draws → Config.abortPoint k = false) ∧
    engineStep { s with abortReq := false } = .next { t with abortReq := false, draws := s.draws }

/-- Parameter writes (R129): while idle a parameter register takes the written value, its reserved bits dropped; while
busy, and for every read-only register, the write is ignored. -/
def Obligations.ParameterWrites : Prop :=
  ∀ (s : State) (rest : List HostItem) (r : Reg) (w : Word), s.plat.regBase.toNat + 64 ≤ 2 ^ 32 → r ≠ .ctrl →
    r ≠ .status →
    s.host = ⟨0, .write (s.plat.regBase + BitVec.ofNat 32 r.offset) (wordBytes w)⟩ :: rest →
    let u := { s with host := rest }
    (s.busy = true → step s = .next u) ∧
    (s.busy = false → step s = .next (match r with
      | .srcAddr => { u with srcAddr := w }
      | .srcLen => { u with srcLen := w }
      | .dstAddr => { u with dstAddr := w }
      | .dstCap => { u with dstCap := w }
      | .unfRowbytes => { u with rowBytes := w }
      | .unfRows => { u with rows := w }
      | .unfBpp => { u with bpp := w.extractLsb' 0 4 }
      | .hbNsym => { u with nsym := w.extractLsb' 0 9 }
      | .ctrl | .status | .errcode | .outLen | .inBitpos | .adler | .trailer | .blkhdr => u))

/-- Register reads (R30, R130): a read returns the register's value, little-endian, and changes no register; a register
that exposes the datapath, read while busy, returns any value, in which the reserved bits of BLKHDR are 0. -/
def Obligations.RegisterReads : Prop :=
  ∀ (s : State) (rest : List HostItem) (r : Reg), s.plat.regBase.toNat + 64 ≤ 2 ^ 32 →
    s.host = ⟨0, .read (s.plat.regBase + BitVec.ofNat 32 r.offset) 4⟩ :: rest →
    let value : Nat := match r with
      | .ctrl => s.op.toNat * 16 + s.ie.toNat * 4
      | .status => s.errf.toNat * 4 + s.done.toNat * 2 + s.busy.toNat
      | .errcode => s.err.code.toNat
      | .srcAddr => s.srcAddr.toNat
      | .srcLen => s.srcLen.toNat
      | .dstAddr => s.dstAddr.toNat
      | .dstCap => s.dstCap.toNat
      | .outLen => s.out.toNat
      | .inBitpos => s.p.toNat
      | .adler => s.s2.toNat * 65536 + s.s1.toNat
      | .trailer => s.trailer.toNat
      | .blkhdr => s.nblocks.toNat * 65536 + s.hdrvalid.toNat * 8 + s.btype.toNat * 2 + s.bfinal.toNat
      | .unfRowbytes => s.rowBytes.toNat
      | .unfRows => s.rows.toNat
      | .unfBpp => s.bpp.toNat
      | .hbNsym => s.nsym.toNat
    (¬(s.busy = true ∧ r.isResult = true) →
      value < 2 ^ 32 ∧ step s = .next { s with host := rest, rdata := wordBytes (BitVec.ofNat 32 value) }) ∧
    (s.busy = true → r.isResult = true →
      ∃ w : Word, step s = .next { s with host := rest, rdata := wordBytes w, draws := s.draws + 1 } ∧
        (r = .blkhdr → w.toNat / 16 % 4096 = 0))

/-- Reset (R310): whatever the IUE was doing, every register takes its reset value and the abort request is cleared, the
engine is idle and the interrupt line is low. Memory is unchanged while idle and while the token in progress is one
that writes no output; during another it may change only from output byte `out` on (R311, assumption 9). -/
def Obligations.ResetPutsEveryRegister : Prop :=
  ∀ (s : State) (rest : List HostItem), Inv s → s.host = ⟨0, .reset⟩ :: rest →
    ∃ t, step s = .next t ∧
      t.op = 0 ∧ t.ie = false ∧ t.busy = false ∧ t.done = false ∧ t.errf = false ∧ t.err.code = 0 ∧
      t.abortReq = false ∧ t.srcAddr = 0 ∧ t.srcLen = 0 ∧ t.dstAddr = 0 ∧ t.dstCap = 0 ∧ t.rowBytes = 0 ∧ t.rows = 0 ∧
      t.bpp = 0 ∧ t.nsym = 0 ∧ t.out = 0 ∧ t.p = 0 ∧ t.s1 = 1 ∧ t.s2 = 0 ∧ t.trailer = 0 ∧ t.bfinal = false ∧
      t.btype = 0 ∧ t.hdrvalid = false ∧ t.nblocks = 0 ∧ t.irq = false ∧ t.host = rest ∧ t.plat = s.plat ∧
      t.resetIn = false ∧
      (s.busy = false ∨ s.phase ∈ [.zlibHeader, .blockHeader, .dynHeader, .clSymbol, .trailer] → t.mem = s.mem) ∧
      OnlyOutputBytes s t s.out.toNat s.lat.dstCap.toNat

/-- Accesses that a model has no step for (R61, R318): a register-block access that is not an aligned access of four
bytes, and a memory access that breaks duty 1 or 2 while busy. -/
def Obligations.HostStuckOnForbiddenAccess : Prop :=
  ∀ (s : State) (rest : List HostItem) (a : Word),
    (∀ bytes, s.host = ⟨0, .write a bytes⟩ :: rest →
      rangesMeet a.toNat bytes.length s.plat.regBase.toNat 64 = true →
      (bytes.length ≠ 4 ∨ a.toNat < s.plat.regBase.toNat ∨ (a.toNat - s.plat.regBase.toNat) % 4 ≠ 0) →
        step s = .fault .registerAccess) ∧
    (∀ n, s.host = ⟨0, .read a n⟩ :: rest → rangesMeet a.toNat n s.plat.regBase.toNat 64 = true →
      (n ≠ 4 ∨ a.toNat < s.plat.regBase.toNat ∨ (a.toNat - s.plat.regBase.toNat) % 4 ≠ 0) →
        step s = .fault .registerAccess) ∧
    (∀ bytes, s.host = ⟨0, .write a bytes⟩ :: rest →
      rangesMeet a.toNat bytes.length s.plat.regBase.toNat 64 = false → backed s.plat a.toNat bytes.length = true →
      s.busy = true → (meetsInput s a.toNat bytes.length = true ∨ meetsDest s a.toNat bytes.length = true) →
        step s = .fault .hostDuty) ∧
    (∀ n, s.host = ⟨0, .read a n⟩ :: rest → rangesMeet a.toNat n s.plat.regBase.toNat 64 = false →
      backed s.plat a.toNat n = true → s.busy = true → meetsDest s a.toNat n = true → step s = .fault .hostDuty)

/-- The running Adler-32 (R175, R176): from `s1 = 1` and `s2 = 0`, `s1` is one plus the sum of the bytes and `s2` is the
sum of the values `s1` takes after each byte, both modulo 65521. -/
def Obligations.AdlerIsTheSumOfPrefixSums : Prop :=
  ∀ bytes : List Byte,
    (adlerRun (1, 0) bytes).1.toNat = (1 + (bytes.map BitVec.toNat).sum) % 65521 ∧
    (adlerRun (1, 0) bytes).2.toNat =
      ((List.range bytes.length).map fun k => 1 + ((bytes.take (k + 1)).map BitVec.toNat).sum).sum % 65521

/-- The interrupt line (R280): it is IE and DONE; it is high after every completion with IE = 1 and low with IE = 0, falls
when DONE is cleared, follows IE while DONE = 1, and is low after a START that begins a command. -/
def Obligations.InterruptLine : Prop :=
  ∀ s : State,
    (s.irq = true ↔ s.ie = true ∧ s.done = true) ∧
    (∀ e, (s.complete e).irq = s.ie) ∧
    (∀ e t, exec (.statusClear true e) s = .next t → t.irq = false) ∧
    (∀ e t, exec (.statusClear false e) s = .next t → t.irq = s.irq) ∧
    (∀ ie op t, exec (.abort ie op) s = .next t → t.irq = (ie && s.done)) ∧
    ∀ abort ie t, s.busy = false → ∀ c ∈ startCommands abort ie, exec c.1 s = .next t → t.busy = true →
      t.irq = false

end
end

