-- ==== Sys2Proof/Laws/Memory.lean ====
section
/-! SUPPORT. Memory: a read after a write, and every memory operation keeps the canonical form. -/

namespace Sys2Proof.Machine

@[simp] theorem memRead_nil (a : Nat) : memRead [] a = unlistedByte := rfl

theorem memRead_cons (x a : Nat) (b : Byte) (m : Memory) :
    memRead ((x, b) :: m) a = if x = a then b else memRead m a := rfl

/-- An address below every listed one reads as an unlisted byte. -/
theorem memRead_of_lt {m : Memory} {a : Nat} (h : ∀ c ∈ m, a < c.1) : memRead m a = unlistedByte := by
  induction m with
  | nil => rfl
  | cons c m ih =>
    obtain ⟨x, b⟩ := c
    have hx : a < x := h (x, b) (by simp)
    rw [memRead_cons, if_neg (by omega), ih fun c hc => h c (List.mem_cons_of_mem _ hc)]

theorem memWf_tail {c : Host.Cell} {m : Memory} (h : Memory.wf (c :: m)) : Memory.wf m :=
  ⟨(List.pairwise_cons.1 h.1).2, fun d hd => h.2 d (List.mem_cons_of_mem _ hd)⟩

theorem memWf_head_lt {c : Host.Cell} {m : Memory} (h : Memory.wf (c :: m)) : ∀ d ∈ m, c.1 < d.1 :=
  (List.pairwise_cons.1 h.1).1

/-- Reading the written address gives the written byte. -/
theorem memRead_memWrite_same {m : Memory} (h : Memory.wf m) (a : Nat) (v : Byte) :
    memRead (memWrite m a v) a = v := by
  induction m with
  | nil => by_cases hv : v = unlistedByte <;> simp [memWrite, hv, memRead]
  | cons c m ih =>
    obtain ⟨x, b⟩ := c
    have htail := memWf_tail h
    have hlt := memWf_head_lt h
    unfold memWrite
    split
    · rename_i hax
      split
      · rename_i hv
        rw [memRead_cons, if_neg (by omega), memRead_of_lt fun d hd => ?_, hv]
        exact lt_trans hax (hlt d hd)
      · simp [memRead]
    · split
      · rename_i hax
        split
        · rename_i hv
          rw [memRead_of_lt fun d hd => hax ▸ hlt d hd, hv]
        · simp [memRead]
      · rename_i hne
        rw [memRead_cons, if_neg (by omega), ih htail]

/-- A write leaves every other address alone. -/
theorem memRead_memWrite_other {m : Memory} {a a' : Nat} (v : Byte) (hne : a' ≠ a) :
    memRead (memWrite m a v) a' = memRead m a' := by
  induction m with
  | nil =>
    by_cases hv : v = unlistedByte
    · simp [memWrite, hv]
    · simp [memWrite, hv, memRead, Ne.symm hne]
  | cons c m ih =>
    obtain ⟨x, b⟩ := c
    unfold memWrite
    split
    · split
      · rfl
      · rw [memRead_cons, if_neg (Ne.symm hne)]
    · split
      · rename_i hax
        subst hax
        split
        · rw [memRead_cons, if_neg (Ne.symm hne)]
        · rw [memRead_cons, if_neg (Ne.symm hne), memRead_cons, if_neg (Ne.symm hne)]
      · rw [memRead_cons, memRead_cons, ih]

/-- What a write lists. -/
theorem mem_memWrite {m : Memory} {a : Nat} {v : Byte} {c : Host.Cell} (hc : c ∈ memWrite m a v) :
    c ∈ m ∨ (c = (a, v) ∧ v ≠ unlistedByte) := by
  induction m with
  | nil => by_cases hv : v = unlistedByte <;> simp_all [memWrite]
  | cons d m ih =>
    obtain ⟨x, b⟩ := d
    unfold memWrite at hc
    split at hc
    · split at hc
      · exact .inl hc
      · rename_i hv
        rcases List.mem_cons.1 hc with rfl | hc
        · exact .inr ⟨rfl, hv⟩
        · exact .inl hc
    · split at hc
      · split at hc
        · exact .inl (List.mem_cons_of_mem _ hc)
        · rename_i hv
          rcases List.mem_cons.1 hc with rfl | hc
          · exact .inr ⟨rfl, hv⟩
          · exact .inl (List.mem_cons_of_mem _ hc)
      · rcases List.mem_cons.1 hc with rfl | hc
        · exact .inl (by simp)
        · exact (ih hc).imp (List.mem_cons_of_mem _) id

/-- A write inside the address space keeps the canonical form. -/
theorem memWf_memWrite {m : Memory} (h : Memory.wf m) {a : Nat} (ha : a < Config.addrSpace) (v : Byte) :
    Memory.wf (memWrite m a v) := by
  refine ⟨?_, fun c hc => ?_⟩
  · induction m with
    | nil => by_cases hv : v = unlistedByte <;> simp [memWrite, hv]
    | cons d m ih =>
      obtain ⟨x, b⟩ := d
      have htail := memWf_tail h
      have hlt := memWf_head_lt h
      unfold memWrite
      split
      · rename_i hax
        split
        · exact h.1
        · refine List.pairwise_cons.2 ⟨fun e he => ?_, h.1⟩
          rcases List.mem_cons.1 he with rfl | he
          · exact hax
          · exact lt_trans hax (hlt e he)
      · split
        · rename_i hax
          split
          · exact htail.1
          · exact List.pairwise_cons.2 ⟨fun e he => hax ▸ hlt e he, htail.1⟩
        · refine List.pairwise_cons.2 ⟨fun e he => ?_, ih htail⟩
          rcases mem_memWrite he with he | ⟨rfl, -⟩
          · exact hlt e he
          · show x < a
            omega
  · rcases mem_memWrite hc with hc | ⟨rfl, hv⟩
    · exact h.2 c hc
    · exact ⟨ha, hv⟩

/-- Writing bytes inside the address space keeps the canonical form. -/
theorem memWf_memWriteBytes {m : Memory} (h : Memory.wf m) {a : Nat} {bytes : List Byte}
    (ha : a + bytes.length ≤ Config.addrSpace) : Memory.wf (memWriteBytes m a bytes) := by
  induction bytes generalizing m a with
  | nil => exact h
  | cons b bytes ih =>
    simp only [List.length_cons] at ha
    exact ih (memWf_memWrite h (by omega) b) (by omega)

/-- Writing bytes leaves every address outside them alone. -/
theorem memRead_memWriteBytes_other {m : Memory} {a a' : Nat} {bytes : List Byte}
    (h : a' < a ∨ a + bytes.length ≤ a') : memRead (memWriteBytes m a bytes) a' = memRead m a' := by
  induction bytes generalizing m a with
  | nil => rfl
  | cons b bytes ih =>
    simp only [List.length_cons] at h
    rw [memWriteBytes, ih (by omega), memRead_memWrite_other b (by omega)]

/-- The bytes written read back. -/
theorem memRead_memWriteBytes_same {m : Memory} (h : Memory.wf m) {a k : Nat} {bytes : List Byte}
    (ha : a + bytes.length ≤ Config.addrSpace) (hk : k < bytes.length) :
    memRead (memWriteBytes m a bytes) (a + k) = bytes[k] := by
  induction bytes generalizing m a k with
  | nil => simp at hk
  | cons b bytes ih =>
    simp only [List.length_cons] at ha hk
    have hwf := memWf_memWrite h (a := a) (by omega) b
    rw [memWriteBytes]
    cases k with
    | zero => rw [memRead_memWriteBytes_other (by omega)]; exact memRead_memWrite_same h a b
    | succ k =>
      have := ih (k := k) hwf (a := a + 1) (by omega) (by omega)
      rw [show a + 1 + k = a + (k + 1) by omega] at this
      simpa using this

/-- Canonical memories that read alike are the same list. -/
theorem memory_ext {m m' : Memory} (h : Memory.wf m) (h' : Memory.wf m') (heq : ∀ a, memRead m a = memRead m' a) :
    m = m' := by
  induction m generalizing m' with
  | nil =>
    cases m' with
    | nil => rfl
    | cons c m' =>
      obtain ⟨x, b⟩ := c
      have := heq x
      simp only [memRead, if_true] at this
      exact absurd this.symm (h'.2 (x, b) (by simp)).2
  | cons c m ih =>
    obtain ⟨x, b⟩ := c
    have hb := (h.2 (x, b) (by simp)).2
    cases m' with
    | nil =>
      have := heq x
      simp only [memRead, if_true] at this
      exact absurd this hb
    | cons c' m' =>
      obtain ⟨x', b'⟩ := c'
      have hb' := (h'.2 (x', b') (by simp)).2
      have hx : x = x' := by
        rcases lt_trichotomy x x' with hlt | heq' | hgt
        · have e := heq x
          rw [memRead_cons, if_pos rfl, memRead_of_lt fun d hd => ?_] at e
          · exact absurd e hb
          · rcases List.mem_cons.1 hd with rfl | hd
            · exact hlt
            · exact lt_trans hlt (memWf_head_lt h' d hd)
        · exact heq'
        · have e := heq x'
          rw [memRead_cons (x := x'), if_pos rfl, memRead_of_lt fun d hd => ?_] at e
          · exact absurd e.symm hb'
          · rcases List.mem_cons.1 hd with rfl | hd
            · exact hgt
            · exact lt_trans hgt (memWf_head_lt h d hd)
      subst hx
      have hbb : b = b' := by simpa [memRead] using heq x
      subst hbb
      refine congrArg _ (ih (memWf_tail h) (memWf_tail h') fun a => ?_)
      have e := heq a
      rw [memRead_cons, memRead_cons] at e
      by_cases hxa : x = a
      · subst hxa
        rw [memRead_of_lt (memWf_head_lt h), memRead_of_lt (memWf_head_lt h')]
      · simpa [hxa] using e

end Sys2Proof.Machine
end

