-- ==== Sys2Proof/Laws/State.lean ====
section
/-! SUPPORT. One lemma per field per named update of the state, each true by `rfl`: no later proof unfolds a record
update. -/

namespace Sys2Proof.Machine

variable (s : State)

/-! ### `State.drawn` -/

@[simp] theorem drawn_op : s.drawn.op = s.op := rfl
@[simp] theorem drawn_ie : s.drawn.ie = s.ie := rfl
@[simp] theorem drawn_busy : s.drawn.busy = s.busy := rfl
@[simp] theorem drawn_done : s.drawn.done = s.done := rfl
@[simp] theorem drawn_errf : s.drawn.errf = s.errf := rfl
@[simp] theorem drawn_err : s.drawn.err = s.err := rfl
@[simp] theorem drawn_abortReq : s.drawn.abortReq = s.abortReq := rfl
@[simp] theorem drawn_resetIn : s.drawn.resetIn = s.resetIn := rfl
@[simp] theorem drawn_srcAddr : s.drawn.srcAddr = s.srcAddr := rfl
@[simp] theorem drawn_srcLen : s.drawn.srcLen = s.srcLen := rfl
@[simp] theorem drawn_dstAddr : s.drawn.dstAddr = s.dstAddr := rfl
@[simp] theorem drawn_dstCap : s.drawn.dstCap = s.dstCap := rfl
@[simp] theorem drawn_rowBytes : s.drawn.rowBytes = s.rowBytes := rfl
@[simp] theorem drawn_rows : s.drawn.rows = s.rows := rfl
@[simp] theorem drawn_bpp : s.drawn.bpp = s.bpp := rfl
@[simp] theorem drawn_nsym : s.drawn.nsym = s.nsym := rfl
@[simp] theorem drawn_p : s.drawn.p = s.p := rfl
@[simp] theorem drawn_out : s.drawn.out = s.out := rfl
@[simp] theorem drawn_s1 : s.drawn.s1 = s.s1 := rfl
@[simp] theorem drawn_s2 : s.drawn.s2 = s.s2 := rfl
@[simp] theorem drawn_trailer : s.drawn.trailer = s.trailer := rfl
@[simp] theorem drawn_bfinal : s.drawn.bfinal = s.bfinal := rfl
@[simp] theorem drawn_btype : s.drawn.btype = s.btype := rfl
@[simp] theorem drawn_hdrvalid : s.drawn.hdrvalid = s.hdrvalid := rfl
@[simp] theorem drawn_nblocks : s.drawn.nblocks = s.nblocks := rfl
@[simp] theorem drawn_lat : s.drawn.lat = s.lat := rfl
@[simp] theorem drawn_lens : s.drawn.lens = s.lens := rfl
@[simp] theorem drawn_tll : s.drawn.tll = s.tll := rfl
@[simp] theorem drawn_td : s.drawn.td = s.td := rfl
@[simp] theorem drawn_tcl : s.drawn.tcl = s.tcl := rfl
@[simp] theorem drawn_thb : s.drawn.thb = s.thb := rfl
@[simp] theorem drawn_phase : s.drawn.phase = s.phase := rfl
@[simp] theorem drawn_clCount : s.drawn.clCount = s.clCount := rfl
@[simp] theorem drawn_hlit : s.drawn.hlit = s.hlit := rfl
@[simp] theorem drawn_hdist : s.drawn.hdist = s.hdist := rfl
@[simp] theorem drawn_matchLen : s.drawn.matchLen = s.matchLen := rfl
@[simp] theorem drawn_row : s.drawn.row = s.row := rfl
@[simp] theorem drawn_symIdx : s.drawn.symIdx = s.symIdx := rfl
@[simp] theorem drawn_mem : s.drawn.mem = s.mem := rfl
@[simp] theorem drawn_plat : s.drawn.plat = s.plat := rfl
@[simp] theorem drawn_host : s.drawn.host = s.host := rfl
@[simp] theorem drawn_rdata : s.drawn.rdata = s.rdata := rfl
@[simp] theorem drawn_draws : s.drawn.draws = s.draws + 1 := rfl

/-! ### `State.setP` -/

@[simp] theorem setP_op (q : Nat) : (s.setP q).op = s.op := rfl
@[simp] theorem setP_ie (q : Nat) : (s.setP q).ie = s.ie := rfl
@[simp] theorem setP_busy (q : Nat) : (s.setP q).busy = s.busy := rfl
@[simp] theorem setP_done (q : Nat) : (s.setP q).done = s.done := rfl
@[simp] theorem setP_errf (q : Nat) : (s.setP q).errf = s.errf := rfl
@[simp] theorem setP_err (q : Nat) : (s.setP q).err = s.err := rfl
@[simp] theorem setP_abortReq (q : Nat) : (s.setP q).abortReq = s.abortReq := rfl
@[simp] theorem setP_resetIn (q : Nat) : (s.setP q).resetIn = s.resetIn := rfl
@[simp] theorem setP_srcAddr (q : Nat) : (s.setP q).srcAddr = s.srcAddr := rfl
@[simp] theorem setP_srcLen (q : Nat) : (s.setP q).srcLen = s.srcLen := rfl
@[simp] theorem setP_dstAddr (q : Nat) : (s.setP q).dstAddr = s.dstAddr := rfl
@[simp] theorem setP_dstCap (q : Nat) : (s.setP q).dstCap = s.dstCap := rfl
@[simp] theorem setP_rowBytes (q : Nat) : (s.setP q).rowBytes = s.rowBytes := rfl
@[simp] theorem setP_rows (q : Nat) : (s.setP q).rows = s.rows := rfl
@[simp] theorem setP_bpp (q : Nat) : (s.setP q).bpp = s.bpp := rfl
@[simp] theorem setP_nsym (q : Nat) : (s.setP q).nsym = s.nsym := rfl
@[simp] theorem setP_p (q : Nat) : (s.setP q).p = BitVec.ofNat 32 q := rfl
@[simp] theorem setP_out (q : Nat) : (s.setP q).out = s.out := rfl
@[simp] theorem setP_s1 (q : Nat) : (s.setP q).s1 = s.s1 := rfl
@[simp] theorem setP_s2 (q : Nat) : (s.setP q).s2 = s.s2 := rfl
@[simp] theorem setP_trailer (q : Nat) : (s.setP q).trailer = s.trailer := rfl
@[simp] theorem setP_bfinal (q : Nat) : (s.setP q).bfinal = s.bfinal := rfl
@[simp] theorem setP_btype (q : Nat) : (s.setP q).btype = s.btype := rfl
@[simp] theorem setP_hdrvalid (q : Nat) : (s.setP q).hdrvalid = s.hdrvalid := rfl
@[simp] theorem setP_nblocks (q : Nat) : (s.setP q).nblocks = s.nblocks := rfl
@[simp] theorem setP_lat (q : Nat) : (s.setP q).lat = s.lat := rfl
@[simp] theorem setP_lens (q : Nat) : (s.setP q).lens = s.lens := rfl
@[simp] theorem setP_tll (q : Nat) : (s.setP q).tll = s.tll := rfl
@[simp] theorem setP_td (q : Nat) : (s.setP q).td = s.td := rfl
@[simp] theorem setP_tcl (q : Nat) : (s.setP q).tcl = s.tcl := rfl
@[simp] theorem setP_thb (q : Nat) : (s.setP q).thb = s.thb := rfl
@[simp] theorem setP_phase (q : Nat) : (s.setP q).phase = s.phase := rfl
@[simp] theorem setP_clCount (q : Nat) : (s.setP q).clCount = s.clCount := rfl
@[simp] theorem setP_hlit (q : Nat) : (s.setP q).hlit = s.hlit := rfl
@[simp] theorem setP_hdist (q : Nat) : (s.setP q).hdist = s.hdist := rfl
@[simp] theorem setP_matchLen (q : Nat) : (s.setP q).matchLen = s.matchLen := rfl
@[simp] theorem setP_row (q : Nat) : (s.setP q).row = s.row := rfl
@[simp] theorem setP_symIdx (q : Nat) : (s.setP q).symIdx = s.symIdx := rfl
@[simp] theorem setP_mem (q : Nat) : (s.setP q).mem = s.mem := rfl
@[simp] theorem setP_plat (q : Nat) : (s.setP q).plat = s.plat := rfl
@[simp] theorem setP_host (q : Nat) : (s.setP q).host = s.host := rfl
@[simp] theorem setP_rdata (q : Nat) : (s.setP q).rdata = s.rdata := rfl
@[simp] theorem setP_draws (q : Nat) : (s.setP q).draws = s.draws := rfl

/-! ### `State.setPhase` -/

@[simp] theorem setPhase_op (ph : Phase) : (s.setPhase ph).op = s.op := rfl
@[simp] theorem setPhase_ie (ph : Phase) : (s.setPhase ph).ie = s.ie := rfl
@[simp] theorem setPhase_busy (ph : Phase) : (s.setPhase ph).busy = s.busy := rfl
@[simp] theorem setPhase_done (ph : Phase) : (s.setPhase ph).done = s.done := rfl
@[simp] theorem setPhase_errf (ph : Phase) : (s.setPhase ph).errf = s.errf := rfl
@[simp] theorem setPhase_err (ph : Phase) : (s.setPhase ph).err = s.err := rfl
@[simp] theorem setPhase_abortReq (ph : Phase) : (s.setPhase ph).abortReq = s.abortReq := rfl
@[simp] theorem setPhase_resetIn (ph : Phase) : (s.setPhase ph).resetIn = s.resetIn := rfl
@[simp] theorem setPhase_srcAddr (ph : Phase) : (s.setPhase ph).srcAddr = s.srcAddr := rfl
@[simp] theorem setPhase_srcLen (ph : Phase) : (s.setPhase ph).srcLen = s.srcLen := rfl
@[simp] theorem setPhase_dstAddr (ph : Phase) : (s.setPhase ph).dstAddr = s.dstAddr := rfl
@[simp] theorem setPhase_dstCap (ph : Phase) : (s.setPhase ph).dstCap = s.dstCap := rfl
@[simp] theorem setPhase_rowBytes (ph : Phase) : (s.setPhase ph).rowBytes = s.rowBytes := rfl
@[simp] theorem setPhase_rows (ph : Phase) : (s.setPhase ph).rows = s.rows := rfl
@[simp] theorem setPhase_bpp (ph : Phase) : (s.setPhase ph).bpp = s.bpp := rfl
@[simp] theorem setPhase_nsym (ph : Phase) : (s.setPhase ph).nsym = s.nsym := rfl
@[simp] theorem setPhase_p (ph : Phase) : (s.setPhase ph).p = s.p := rfl
@[simp] theorem setPhase_out (ph : Phase) : (s.setPhase ph).out = s.out := rfl
@[simp] theorem setPhase_s1 (ph : Phase) : (s.setPhase ph).s1 = s.s1 := rfl
@[simp] theorem setPhase_s2 (ph : Phase) : (s.setPhase ph).s2 = s.s2 := rfl
@[simp] theorem setPhase_trailer (ph : Phase) : (s.setPhase ph).trailer = s.trailer := rfl
@[simp] theorem setPhase_bfinal (ph : Phase) : (s.setPhase ph).bfinal = s.bfinal := rfl
@[simp] theorem setPhase_btype (ph : Phase) : (s.setPhase ph).btype = s.btype := rfl
@[simp] theorem setPhase_hdrvalid (ph : Phase) : (s.setPhase ph).hdrvalid = s.hdrvalid := rfl
@[simp] theorem setPhase_nblocks (ph : Phase) : (s.setPhase ph).nblocks = s.nblocks := rfl
@[simp] theorem setPhase_lat (ph : Phase) : (s.setPhase ph).lat = s.lat := rfl
@[simp] theorem setPhase_lens (ph : Phase) : (s.setPhase ph).lens = s.lens := rfl
@[simp] theorem setPhase_tll (ph : Phase) : (s.setPhase ph).tll = s.tll := rfl
@[simp] theorem setPhase_td (ph : Phase) : (s.setPhase ph).td = s.td := rfl
@[simp] theorem setPhase_tcl (ph : Phase) : (s.setPhase ph).tcl = s.tcl := rfl
@[simp] theorem setPhase_thb (ph : Phase) : (s.setPhase ph).thb = s.thb := rfl
@[simp] theorem setPhase_phase (ph : Phase) : (s.setPhase ph).phase = ph := rfl
@[simp] theorem setPhase_clCount (ph : Phase) : (s.setPhase ph).clCount = s.clCount := rfl
@[simp] theorem setPhase_hlit (ph : Phase) : (s.setPhase ph).hlit = s.hlit := rfl
@[simp] theorem setPhase_hdist (ph : Phase) : (s.setPhase ph).hdist = s.hdist := rfl
@[simp] theorem setPhase_matchLen (ph : Phase) : (s.setPhase ph).matchLen = s.matchLen := rfl
@[simp] theorem setPhase_row (ph : Phase) : (s.setPhase ph).row = s.row := rfl
@[simp] theorem setPhase_symIdx (ph : Phase) : (s.setPhase ph).symIdx = s.symIdx := rfl
@[simp] theorem setPhase_mem (ph : Phase) : (s.setPhase ph).mem = s.mem := rfl
@[simp] theorem setPhase_plat (ph : Phase) : (s.setPhase ph).plat = s.plat := rfl
@[simp] theorem setPhase_host (ph : Phase) : (s.setPhase ph).host = s.host := rfl
@[simp] theorem setPhase_rdata (ph : Phase) : (s.setPhase ph).rdata = s.rdata := rfl
@[simp] theorem setPhase_draws (ph : Phase) : (s.setPhase ph).draws = s.draws := rfl

/-! ### `State.emitted` -/

@[simp] theorem emitted_op (b : Byte) : (s.emitted b).op = s.op := rfl
@[simp] theorem emitted_ie (b : Byte) : (s.emitted b).ie = s.ie := rfl
@[simp] theorem emitted_busy (b : Byte) : (s.emitted b).busy = s.busy := rfl
@[simp] theorem emitted_done (b : Byte) : (s.emitted b).done = s.done := rfl
@[simp] theorem emitted_errf (b : Byte) : (s.emitted b).errf = s.errf := rfl
@[simp] theorem emitted_err (b : Byte) : (s.emitted b).err = s.err := rfl
@[simp] theorem emitted_abortReq (b : Byte) : (s.emitted b).abortReq = s.abortReq := rfl
@[simp] theorem emitted_resetIn (b : Byte) : (s.emitted b).resetIn = s.resetIn := rfl
@[simp] theorem emitted_srcAddr (b : Byte) : (s.emitted b).srcAddr = s.srcAddr := rfl
@[simp] theorem emitted_srcLen (b : Byte) : (s.emitted b).srcLen = s.srcLen := rfl
@[simp] theorem emitted_dstAddr (b : Byte) : (s.emitted b).dstAddr = s.dstAddr := rfl
@[simp] theorem emitted_dstCap (b : Byte) : (s.emitted b).dstCap = s.dstCap := rfl
@[simp] theorem emitted_rowBytes (b : Byte) : (s.emitted b).rowBytes = s.rowBytes := rfl
@[simp] theorem emitted_rows (b : Byte) : (s.emitted b).rows = s.rows := rfl
@[simp] theorem emitted_bpp (b : Byte) : (s.emitted b).bpp = s.bpp := rfl
@[simp] theorem emitted_nsym (b : Byte) : (s.emitted b).nsym = s.nsym := rfl
@[simp] theorem emitted_p (b : Byte) : (s.emitted b).p = s.p := rfl
@[simp] theorem emitted_out (b : Byte) : (s.emitted b).out = BitVec.ofNat 32 (s.out.toNat + 1) := rfl
@[simp] theorem emitted_s1 (b : Byte) : (s.emitted b).s1 = adlerS1 s.s1 b := rfl
@[simp] theorem emitted_s2 (b : Byte) : (s.emitted b).s2 = adlerS2 s.s2 (adlerS1 s.s1 b) := rfl
@[simp] theorem emitted_trailer (b : Byte) : (s.emitted b).trailer = s.trailer := rfl
@[simp] theorem emitted_bfinal (b : Byte) : (s.emitted b).bfinal = s.bfinal := rfl
@[simp] theorem emitted_btype (b : Byte) : (s.emitted b).btype = s.btype := rfl
@[simp] theorem emitted_hdrvalid (b : Byte) : (s.emitted b).hdrvalid = s.hdrvalid := rfl
@[simp] theorem emitted_nblocks (b : Byte) : (s.emitted b).nblocks = s.nblocks := rfl
@[simp] theorem emitted_lat (b : Byte) : (s.emitted b).lat = s.lat := rfl
@[simp] theorem emitted_lens (b : Byte) : (s.emitted b).lens = s.lens := rfl
@[simp] theorem emitted_tll (b : Byte) : (s.emitted b).tll = s.tll := rfl
@[simp] theorem emitted_td (b : Byte) : (s.emitted b).td = s.td := rfl
@[simp] theorem emitted_tcl (b : Byte) : (s.emitted b).tcl = s.tcl := rfl
@[simp] theorem emitted_thb (b : Byte) : (s.emitted b).thb = s.thb := rfl
@[simp] theorem emitted_phase (b : Byte) : (s.emitted b).phase = s.phase := rfl
@[simp] theorem emitted_clCount (b : Byte) : (s.emitted b).clCount = s.clCount := rfl
@[simp] theorem emitted_hlit (b : Byte) : (s.emitted b).hlit = s.hlit := rfl
@[simp] theorem emitted_hdist (b : Byte) : (s.emitted b).hdist = s.hdist := rfl
@[simp] theorem emitted_matchLen (b : Byte) : (s.emitted b).matchLen = s.matchLen := rfl
@[simp] theorem emitted_row (b : Byte) : (s.emitted b).row = s.row := rfl
@[simp] theorem emitted_symIdx (b : Byte) : (s.emitted b).symIdx = s.symIdx := rfl
@[simp] theorem emitted_mem (b : Byte) : (s.emitted b).mem = memWrite s.mem (destAddr s s.out.toNat) b := rfl
@[simp] theorem emitted_plat (b : Byte) : (s.emitted b).plat = s.plat := rfl
@[simp] theorem emitted_host (b : Byte) : (s.emitted b).host = s.host := rfl
@[simp] theorem emitted_rdata (b : Byte) : (s.emitted b).rdata = s.rdata := rfl
@[simp] theorem emitted_draws (b : Byte) : (s.emitted b).draws = s.draws := rfl

/-! ### `State.complete` -/

@[simp] theorem complete_op (e : ErrCode) : (s.complete e).op = s.op := rfl
@[simp] theorem complete_ie (e : ErrCode) : (s.complete e).ie = s.ie := rfl
@[simp] theorem complete_busy (e : ErrCode) : (s.complete e).busy = false := rfl
@[simp] theorem complete_done (e : ErrCode) : (s.complete e).done = true := rfl
@[simp] theorem complete_errf (e : ErrCode) : (s.complete e).errf = e.isError := rfl
@[simp] theorem complete_err (e : ErrCode) : (s.complete e).err = e := rfl
@[simp] theorem complete_abortReq (e : ErrCode) : (s.complete e).abortReq = false := rfl
@[simp] theorem complete_resetIn (e : ErrCode) : (s.complete e).resetIn = s.resetIn := rfl
@[simp] theorem complete_srcAddr (e : ErrCode) : (s.complete e).srcAddr = s.srcAddr := rfl
@[simp] theorem complete_srcLen (e : ErrCode) : (s.complete e).srcLen = s.srcLen := rfl
@[simp] theorem complete_dstAddr (e : ErrCode) : (s.complete e).dstAddr = s.dstAddr := rfl
@[simp] theorem complete_dstCap (e : ErrCode) : (s.complete e).dstCap = s.dstCap := rfl
@[simp] theorem complete_rowBytes (e : ErrCode) : (s.complete e).rowBytes = s.rowBytes := rfl
@[simp] theorem complete_rows (e : ErrCode) : (s.complete e).rows = s.rows := rfl
@[simp] theorem complete_bpp (e : ErrCode) : (s.complete e).bpp = s.bpp := rfl
@[simp] theorem complete_nsym (e : ErrCode) : (s.complete e).nsym = s.nsym := rfl
@[simp] theorem complete_p (e : ErrCode) : (s.complete e).p = s.p := rfl
@[simp] theorem complete_out (e : ErrCode) : (s.complete e).out = s.out := rfl
@[simp] theorem complete_s1 (e : ErrCode) : (s.complete e).s1 = s.s1 := rfl
@[simp] theorem complete_s2 (e : ErrCode) : (s.complete e).s2 = s.s2 := rfl
@[simp] theorem complete_trailer (e : ErrCode) : (s.complete e).trailer = s.trailer := rfl
@[simp] theorem complete_bfinal (e : ErrCode) : (s.complete e).bfinal = s.bfinal := rfl
@[simp] theorem complete_btype (e : ErrCode) : (s.complete e).btype = s.btype := rfl
@[simp] theorem complete_hdrvalid (e : ErrCode) : (s.complete e).hdrvalid = s.hdrvalid := rfl
@[simp] theorem complete_nblocks (e : ErrCode) : (s.complete e).nblocks = s.nblocks := rfl
@[simp] theorem complete_lat (e : ErrCode) : (s.complete e).lat = s.lat := rfl
@[simp] theorem complete_lens (e : ErrCode) : (s.complete e).lens = s.lens := rfl
@[simp] theorem complete_tll (e : ErrCode) : (s.complete e).tll = s.tll := rfl
@[simp] theorem complete_td (e : ErrCode) : (s.complete e).td = s.td := rfl
@[simp] theorem complete_tcl (e : ErrCode) : (s.complete e).tcl = s.tcl := rfl
@[simp] theorem complete_thb (e : ErrCode) : (s.complete e).thb = s.thb := rfl
@[simp] theorem complete_phase (e : ErrCode) : (s.complete e).phase = .idle := rfl
@[simp] theorem complete_clCount (e : ErrCode) : (s.complete e).clCount = s.clCount := rfl
@[simp] theorem complete_hlit (e : ErrCode) : (s.complete e).hlit = s.hlit := rfl
@[simp] theorem complete_hdist (e : ErrCode) : (s.complete e).hdist = s.hdist := rfl
@[simp] theorem complete_matchLen (e : ErrCode) : (s.complete e).matchLen = s.matchLen := rfl
@[simp] theorem complete_row (e : ErrCode) : (s.complete e).row = s.row := rfl
@[simp] theorem complete_symIdx (e : ErrCode) : (s.complete e).symIdx = s.symIdx := rfl
@[simp] theorem complete_mem (e : ErrCode) : (s.complete e).mem = s.mem := rfl
@[simp] theorem complete_plat (e : ErrCode) : (s.complete e).plat = s.plat := rfl
@[simp] theorem complete_host (e : ErrCode) : (s.complete e).host = s.host := rfl
@[simp] theorem complete_rdata (e : ErrCode) : (s.complete e).rdata = s.rdata := rfl
@[simp] theorem complete_draws (e : ErrCode) : (s.complete e).draws = s.draws := rfl

/-! ### `State.started` -/

@[simp] theorem started_op (o : BitVec 4) (i : Bool) : (s.started o i).op = o := rfl
@[simp] theorem started_ie (o : BitVec 4) (i : Bool) : (s.started o i).ie = i := rfl
@[simp] theorem started_busy (o : BitVec 4) (i : Bool) : (s.started o i).busy = true := rfl
@[simp] theorem started_done (o : BitVec 4) (i : Bool) : (s.started o i).done = false := rfl
@[simp] theorem started_errf (o : BitVec 4) (i : Bool) : (s.started o i).errf = false := rfl
@[simp] theorem started_err (o : BitVec 4) (i : Bool) : (s.started o i).err = .ok := rfl
@[simp] theorem started_abortReq (o : BitVec 4) (i : Bool) : (s.started o i).abortReq = s.abortReq := rfl
@[simp] theorem started_resetIn (o : BitVec 4) (i : Bool) : (s.started o i).resetIn = s.resetIn := rfl
@[simp] theorem started_srcAddr (o : BitVec 4) (i : Bool) : (s.started o i).srcAddr = s.srcAddr := rfl
@[simp] theorem started_srcLen (o : BitVec 4) (i : Bool) : (s.started o i).srcLen = s.srcLen := rfl
@[simp] theorem started_dstAddr (o : BitVec 4) (i : Bool) : (s.started o i).dstAddr = s.dstAddr := rfl
@[simp] theorem started_dstCap (o : BitVec 4) (i : Bool) : (s.started o i).dstCap = s.dstCap := rfl
@[simp] theorem started_rowBytes (o : BitVec 4) (i : Bool) : (s.started o i).rowBytes = s.rowBytes := rfl
@[simp] theorem started_rows (o : BitVec 4) (i : Bool) : (s.started o i).rows = s.rows := rfl
@[simp] theorem started_bpp (o : BitVec 4) (i : Bool) : (s.started o i).bpp = s.bpp := rfl
@[simp] theorem started_nsym (o : BitVec 4) (i : Bool) : (s.started o i).nsym = s.nsym := rfl
@[simp] theorem started_p (o : BitVec 4) (i : Bool) : (s.started o i).p = 0 := rfl
@[simp] theorem started_out (o : BitVec 4) (i : Bool) : (s.started o i).out = 0 := rfl
@[simp] theorem started_s1 (o : BitVec 4) (i : Bool) : (s.started o i).s1 = 1 := rfl
@[simp] theorem started_s2 (o : BitVec 4) (i : Bool) : (s.started o i).s2 = 0 := rfl
@[simp] theorem started_trailer (o : BitVec 4) (i : Bool) : (s.started o i).trailer = 0 := rfl
@[simp] theorem started_bfinal (o : BitVec 4) (i : Bool) : (s.started o i).bfinal = false := rfl
@[simp] theorem started_btype (o : BitVec 4) (i : Bool) : (s.started o i).btype = 0 := rfl
@[simp] theorem started_hdrvalid (o : BitVec 4) (i : Bool) : (s.started o i).hdrvalid = false := rfl
@[simp] theorem started_nblocks (o : BitVec 4) (i : Bool) : (s.started o i).nblocks = 0 := rfl
@[simp] theorem started_lat (o : BitVec 4) (i : Bool) : (s.started o i).lat = latchParameters o s := rfl
@[simp] theorem started_lens (o : BitVec 4) (i : Bool) : (s.started o i).lens = s.lens := rfl
@[simp] theorem started_tll (o : BitVec 4) (i : Bool) : (s.started o i).tll = s.tll := rfl
@[simp] theorem started_td (o : BitVec 4) (i : Bool) : (s.started o i).td = s.td := rfl
@[simp] theorem started_tcl (o : BitVec 4) (i : Bool) : (s.started o i).tcl = s.tcl := rfl
@[simp] theorem started_thb (o : BitVec 4) (i : Bool) : (s.started o i).thb = s.thb := rfl
@[simp] theorem started_phase (o : BitVec 4) (i : Bool) : (s.started o i).phase = s.phase := rfl
@[simp] theorem started_clCount (o : BitVec 4) (i : Bool) : (s.started o i).clCount = s.clCount := rfl
@[simp] theorem started_hlit (o : BitVec 4) (i : Bool) : (s.started o i).hlit = s.hlit := rfl
@[simp] theorem started_hdist (o : BitVec 4) (i : Bool) : (s.started o i).hdist = s.hdist := rfl
@[simp] theorem started_matchLen (o : BitVec 4) (i : Bool) : (s.started o i).matchLen = s.matchLen := rfl
@[simp] theorem started_row (o : BitVec 4) (i : Bool) : (s.started o i).row = s.row := rfl
@[simp] theorem started_symIdx (o : BitVec 4) (i : Bool) : (s.started o i).symIdx = s.symIdx := rfl
@[simp] theorem started_mem (o : BitVec 4) (i : Bool) : (s.started o i).mem = s.mem := rfl
@[simp] theorem started_plat (o : BitVec 4) (i : Bool) : (s.started o i).plat = s.plat := rfl
@[simp] theorem started_host (o : BitVec 4) (i : Bool) : (s.started o i).host = s.host := rfl
@[simp] theorem started_rdata (o : BitVec 4) (i : Bool) : (s.started o i).rdata = s.rdata := rfl
@[simp] theorem started_draws (o : BitVec 4) (i : Bool) : (s.started o i).draws = s.draws := rfl

/-! ### `State.entered` -/

@[simp] theorem entered_op (ph : Phase) : (s.entered ph).op = s.op := rfl
@[simp] theorem entered_ie (ph : Phase) : (s.entered ph).ie = s.ie := rfl
@[simp] theorem entered_busy (ph : Phase) : (s.entered ph).busy = s.busy := rfl
@[simp] theorem entered_done (ph : Phase) : (s.entered ph).done = s.done := rfl
@[simp] theorem entered_errf (ph : Phase) : (s.entered ph).errf = s.errf := rfl
@[simp] theorem entered_err (ph : Phase) : (s.entered ph).err = s.err := rfl
@[simp] theorem entered_abortReq (ph : Phase) : (s.entered ph).abortReq = s.abortReq := rfl
@[simp] theorem entered_resetIn (ph : Phase) : (s.entered ph).resetIn = s.resetIn := rfl
@[simp] theorem entered_srcAddr (ph : Phase) : (s.entered ph).srcAddr = s.srcAddr := rfl
@[simp] theorem entered_srcLen (ph : Phase) : (s.entered ph).srcLen = s.srcLen := rfl
@[simp] theorem entered_dstAddr (ph : Phase) : (s.entered ph).dstAddr = s.dstAddr := rfl
@[simp] theorem entered_dstCap (ph : Phase) : (s.entered ph).dstCap = s.dstCap := rfl
@[simp] theorem entered_rowBytes (ph : Phase) : (s.entered ph).rowBytes = s.rowBytes := rfl
@[simp] theorem entered_rows (ph : Phase) : (s.entered ph).rows = s.rows := rfl
@[simp] theorem entered_bpp (ph : Phase) : (s.entered ph).bpp = s.bpp := rfl
@[simp] theorem entered_nsym (ph : Phase) : (s.entered ph).nsym = s.nsym := rfl
@[simp] theorem entered_p (ph : Phase) : (s.entered ph).p = s.p := rfl
@[simp] theorem entered_out (ph : Phase) : (s.entered ph).out = s.out := rfl
@[simp] theorem entered_s1 (ph : Phase) : (s.entered ph).s1 = s.s1 := rfl
@[simp] theorem entered_s2 (ph : Phase) : (s.entered ph).s2 = s.s2 := rfl
@[simp] theorem entered_trailer (ph : Phase) : (s.entered ph).trailer = s.trailer := rfl
@[simp] theorem entered_bfinal (ph : Phase) : (s.entered ph).bfinal = s.bfinal := rfl
@[simp] theorem entered_btype (ph : Phase) : (s.entered ph).btype = s.btype := rfl
@[simp] theorem entered_hdrvalid (ph : Phase) : (s.entered ph).hdrvalid = s.hdrvalid := rfl
@[simp] theorem entered_nblocks (ph : Phase) : (s.entered ph).nblocks = s.nblocks := rfl
@[simp] theorem entered_lat (ph : Phase) : (s.entered ph).lat = s.lat := rfl
@[simp] theorem entered_lens (ph : Phase) : (s.entered ph).lens = s.lens := rfl
@[simp] theorem entered_tll (ph : Phase) : (s.entered ph).tll = s.tll := rfl
@[simp] theorem entered_td (ph : Phase) : (s.entered ph).td = s.td := rfl
@[simp] theorem entered_tcl (ph : Phase) : (s.entered ph).tcl = s.tcl := rfl
@[simp] theorem entered_thb (ph : Phase) : (s.entered ph).thb = s.thb := rfl
@[simp] theorem entered_phase (ph : Phase) : (s.entered ph).phase = ph := rfl
@[simp] theorem entered_clCount (ph : Phase) : (s.entered ph).clCount = s.clCount := rfl
@[simp] theorem entered_hlit (ph : Phase) : (s.entered ph).hlit = s.hlit := rfl
@[simp] theorem entered_hdist (ph : Phase) : (s.entered ph).hdist = s.hdist := rfl
@[simp] theorem entered_matchLen (ph : Phase) : (s.entered ph).matchLen = s.matchLen := rfl
@[simp] theorem entered_row (ph : Phase) : (s.entered ph).row = 0 := rfl
@[simp] theorem entered_symIdx (ph : Phase) : (s.entered ph).symIdx = 0 := rfl
@[simp] theorem entered_mem (ph : Phase) : (s.entered ph).mem = s.mem := rfl
@[simp] theorem entered_plat (ph : Phase) : (s.entered ph).plat = s.plat := rfl
@[simp] theorem entered_host (ph : Phase) : (s.entered ph).host = s.host := rfl
@[simp] theorem entered_rdata (ph : Phase) : (s.entered ph).rdata = s.rdata := rfl
@[simp] theorem entered_draws (ph : Phase) : (s.entered ph).draws = s.draws := rfl

/-! ### `State.latchHeader` -/

@[simp] theorem latchHeader_op (f : Bool) (ty : BitVec 2) : (s.latchHeader f ty).op = s.op := rfl
@[simp] theorem latchHeader_ie (f : Bool) (ty : BitVec 2) : (s.latchHeader f ty).ie = s.ie := rfl
@[simp] theorem latchHeader_busy (f : Bool) (ty : BitVec 2) : (s.latchHeader f ty).busy = s.busy := rfl
@[simp] theorem latchHeader_done (f : Bool) (ty : BitVec 2) : (s.latchHeader f ty).done = s.done := rfl
@[simp] theorem latchHeader_errf (f : Bool) (ty : BitVec 2) : (s.latchHeader f ty).errf = s.errf := rfl
@[simp] theorem latchHeader_err (f : Bool) (ty : BitVec 2) : (s.latchHeader f ty).err = s.err := rfl
@[simp] theorem latchHeader_abortReq (f : Bool) (ty : BitVec 2) : (s.latchHeader f ty).abortReq = s.abortReq := rfl
@[simp] theorem latchHeader_resetIn (f : Bool) (ty : BitVec 2) : (s.latchHeader f ty).resetIn = s.resetIn := rfl
@[simp] theorem latchHeader_srcAddr (f : Bool) (ty : BitVec 2) : (s.latchHeader f ty).srcAddr = s.srcAddr := rfl
@[simp] theorem latchHeader_srcLen (f : Bool) (ty : BitVec 2) : (s.latchHeader f ty).srcLen = s.srcLen := rfl
@[simp] theorem latchHeader_dstAddr (f : Bool) (ty : BitVec 2) : (s.latchHeader f ty).dstAddr = s.dstAddr := rfl
@[simp] theorem latchHeader_dstCap (f : Bool) (ty : BitVec 2) : (s.latchHeader f ty).dstCap = s.dstCap := rfl
@[simp] theorem latchHeader_rowBytes (f : Bool) (ty : BitVec 2) : (s.latchHeader f ty).rowBytes = s.rowBytes := rfl
@[simp] theorem latchHeader_rows (f : Bool) (ty : BitVec 2) : (s.latchHeader f ty).rows = s.rows := rfl
@[simp] theorem latchHeader_bpp (f : Bool) (ty : BitVec 2) : (s.latchHeader f ty).bpp = s.bpp := rfl
@[simp] theorem latchHeader_nsym (f : Bool) (ty : BitVec 2) : (s.latchHeader f ty).nsym = s.nsym := rfl
@[simp] theorem latchHeader_p (f : Bool) (ty : BitVec 2) : (s.latchHeader f ty).p = s.p := rfl
@[simp] theorem latchHeader_out (f : Bool) (ty : BitVec 2) : (s.latchHeader f ty).out = s.out := rfl
@[simp] theorem latchHeader_s1 (f : Bool) (ty : BitVec 2) : (s.latchHeader f ty).s1 = s.s1 := rfl
@[simp] theorem latchHeader_s2 (f : Bool) (ty : BitVec 2) : (s.latchHeader f ty).s2 = s.s2 := rfl
@[simp] theorem latchHeader_trailer (f : Bool) (ty : BitVec 2) : (s.latchHeader f ty).trailer = s.trailer := rfl
@[simp] theorem latchHeader_bfinal (f : Bool) (ty : BitVec 2) : (s.latchHeader f ty).bfinal = f := rfl
@[simp] theorem latchHeader_btype (f : Bool) (ty : BitVec 2) : (s.latchHeader f ty).btype = ty := rfl
@[simp] theorem latchHeader_hdrvalid (f : Bool) (ty : BitVec 2) : (s.latchHeader f ty).hdrvalid = true := rfl
@[simp] theorem latchHeader_nblocks (f : Bool) (ty : BitVec 2) : (s.latchHeader f ty).nblocks = BitVec.ofNat 16 (min (s.nblocks.toNat + 1) 0xFFFF) := rfl
@[simp] theorem latchHeader_lat (f : Bool) (ty : BitVec 2) : (s.latchHeader f ty).lat = s.lat := rfl
@[simp] theorem latchHeader_lens (f : Bool) (ty : BitVec 2) : (s.latchHeader f ty).lens = s.lens := rfl
@[simp] theorem latchHeader_tll (f : Bool) (ty : BitVec 2) : (s.latchHeader f ty).tll = s.tll := rfl
@[simp] theorem latchHeader_td (f : Bool) (ty : BitVec 2) : (s.latchHeader f ty).td = s.td := rfl
@[simp] theorem latchHeader_tcl (f : Bool) (ty : BitVec 2) : (s.latchHeader f ty).tcl = s.tcl := rfl
@[simp] theorem latchHeader_thb (f : Bool) (ty : BitVec 2) : (s.latchHeader f ty).thb = s.thb := rfl
@[simp] theorem latchHeader_phase (f : Bool) (ty : BitVec 2) : (s.latchHeader f ty).phase = s.phase := rfl
@[simp] theorem latchHeader_clCount (f : Bool) (ty : BitVec 2) : (s.latchHeader f ty).clCount = s.clCount := rfl
@[simp] theorem latchHeader_hlit (f : Bool) (ty : BitVec 2) : (s.latchHeader f ty).hlit = s.hlit := rfl
@[simp] theorem latchHeader_hdist (f : Bool) (ty : BitVec 2) : (s.latchHeader f ty).hdist = s.hdist := rfl
@[simp] theorem latchHeader_matchLen (f : Bool) (ty : BitVec 2) : (s.latchHeader f ty).matchLen = s.matchLen := rfl
@[simp] theorem latchHeader_row (f : Bool) (ty : BitVec 2) : (s.latchHeader f ty).row = s.row := rfl
@[simp] theorem latchHeader_symIdx (f : Bool) (ty : BitVec 2) : (s.latchHeader f ty).symIdx = s.symIdx := rfl
@[simp] theorem latchHeader_mem (f : Bool) (ty : BitVec 2) : (s.latchHeader f ty).mem = s.mem := rfl
@[simp] theorem latchHeader_plat (f : Bool) (ty : BitVec 2) : (s.latchHeader f ty).plat = s.plat := rfl
@[simp] theorem latchHeader_host (f : Bool) (ty : BitVec 2) : (s.latchHeader f ty).host = s.host := rfl
@[simp] theorem latchHeader_rdata (f : Bool) (ty : BitVec 2) : (s.latchHeader f ty).rdata = s.rdata := rfl
@[simp] theorem latchHeader_draws (f : Bool) (ty : BitVec 2) : (s.latchHeader f ty).draws = s.draws := rfl

/-! ### `State.statusClear` -/

@[simp] theorem statusClear_op (d e : Bool) : (s.statusClear d e).op = s.op := rfl
@[simp] theorem statusClear_ie (d e : Bool) : (s.statusClear d e).ie = s.ie := rfl
@[simp] theorem statusClear_busy (d e : Bool) : (s.statusClear d e).busy = s.busy := rfl
@[simp] theorem statusClear_done (d e : Bool) : (s.statusClear d e).done = (s.done && !d) := rfl
@[simp] theorem statusClear_errf (d e : Bool) : (s.statusClear d e).errf = (s.errf && !e) := rfl
@[simp] theorem statusClear_err (d e : Bool) : (s.statusClear d e).err = s.err := rfl
@[simp] theorem statusClear_abortReq (d e : Bool) : (s.statusClear d e).abortReq = s.abortReq := rfl
@[simp] theorem statusClear_resetIn (d e : Bool) : (s.statusClear d e).resetIn = s.resetIn := rfl
@[simp] theorem statusClear_srcAddr (d e : Bool) : (s.statusClear d e).srcAddr = s.srcAddr := rfl
@[simp] theorem statusClear_srcLen (d e : Bool) : (s.statusClear d e).srcLen = s.srcLen := rfl
@[simp] theorem statusClear_dstAddr (d e : Bool) : (s.statusClear d e).dstAddr = s.dstAddr := rfl
@[simp] theorem statusClear_dstCap (d e : Bool) : (s.statusClear d e).dstCap = s.dstCap := rfl
@[simp] theorem statusClear_rowBytes (d e : Bool) : (s.statusClear d e).rowBytes = s.rowBytes := rfl
@[simp] theorem statusClear_rows (d e : Bool) : (s.statusClear d e).rows = s.rows := rfl
@[simp] theorem statusClear_bpp (d e : Bool) : (s.statusClear d e).bpp = s.bpp := rfl
@[simp] theorem statusClear_nsym (d e : Bool) : (s.statusClear d e).nsym = s.nsym := rfl
@[simp] theorem statusClear_p (d e : Bool) : (s.statusClear d e).p = s.p := rfl
@[simp] theorem statusClear_out (d e : Bool) : (s.statusClear d e).out = s.out := rfl
@[simp] theorem statusClear_s1 (d e : Bool) : (s.statusClear d e).s1 = s.s1 := rfl
@[simp] theorem statusClear_s2 (d e : Bool) : (s.statusClear d e).s2 = s.s2 := rfl
@[simp] theorem statusClear_trailer (d e : Bool) : (s.statusClear d e).trailer = s.trailer := rfl
@[simp] theorem statusClear_bfinal (d e : Bool) : (s.statusClear d e).bfinal = s.bfinal := rfl
@[simp] theorem statusClear_btype (d e : Bool) : (s.statusClear d e).btype = s.btype := rfl
@[simp] theorem statusClear_hdrvalid (d e : Bool) : (s.statusClear d e).hdrvalid = s.hdrvalid := rfl
@[simp] theorem statusClear_nblocks (d e : Bool) : (s.statusClear d e).nblocks = s.nblocks := rfl
@[simp] theorem statusClear_lat (d e : Bool) : (s.statusClear d e).lat = s.lat := rfl
@[simp] theorem statusClear_lens (d e : Bool) : (s.statusClear d e).lens = s.lens := rfl
@[simp] theorem statusClear_tll (d e : Bool) : (s.statusClear d e).tll = s.tll := rfl
@[simp] theorem statusClear_td (d e : Bool) : (s.statusClear d e).td = s.td := rfl
@[simp] theorem statusClear_tcl (d e : Bool) : (s.statusClear d e).tcl = s.tcl := rfl
@[simp] theorem statusClear_thb (d e : Bool) : (s.statusClear d e).thb = s.thb := rfl
@[simp] theorem statusClear_phase (d e : Bool) : (s.statusClear d e).phase = s.phase := rfl
@[simp] theorem statusClear_clCount (d e : Bool) : (s.statusClear d e).clCount = s.clCount := rfl
@[simp] theorem statusClear_hlit (d e : Bool) : (s.statusClear d e).hlit = s.hlit := rfl
@[simp] theorem statusClear_hdist (d e : Bool) : (s.statusClear d e).hdist = s.hdist := rfl
@[simp] theorem statusClear_matchLen (d e : Bool) : (s.statusClear d e).matchLen = s.matchLen := rfl
@[simp] theorem statusClear_row (d e : Bool) : (s.statusClear d e).row = s.row := rfl
@[simp] theorem statusClear_symIdx (d e : Bool) : (s.statusClear d e).symIdx = s.symIdx := rfl
@[simp] theorem statusClear_mem (d e : Bool) : (s.statusClear d e).mem = s.mem := rfl
@[simp] theorem statusClear_plat (d e : Bool) : (s.statusClear d e).plat = s.plat := rfl
@[simp] theorem statusClear_host (d e : Bool) : (s.statusClear d e).host = s.host := rfl
@[simp] theorem statusClear_rdata (d e : Bool) : (s.statusClear d e).rdata = s.rdata := rfl
@[simp] theorem statusClear_draws (d e : Bool) : (s.statusClear d e).draws = s.draws := rfl

/-! ### `State.fixedTrees` -/

@[simp] theorem fixedTrees_op : s.fixedTrees.op = s.op := rfl
@[simp] theorem fixedTrees_ie : s.fixedTrees.ie = s.ie := rfl
@[simp] theorem fixedTrees_busy : s.fixedTrees.busy = s.busy := rfl
@[simp] theorem fixedTrees_done : s.fixedTrees.done = s.done := rfl
@[simp] theorem fixedTrees_errf : s.fixedTrees.errf = s.errf := rfl
@[simp] theorem fixedTrees_err : s.fixedTrees.err = s.err := rfl
@[simp] theorem fixedTrees_abortReq : s.fixedTrees.abortReq = s.abortReq := rfl
@[simp] theorem fixedTrees_resetIn : s.fixedTrees.resetIn = s.resetIn := rfl
@[simp] theorem fixedTrees_srcAddr : s.fixedTrees.srcAddr = s.srcAddr := rfl
@[simp] theorem fixedTrees_srcLen : s.fixedTrees.srcLen = s.srcLen := rfl
@[simp] theorem fixedTrees_dstAddr : s.fixedTrees.dstAddr = s.dstAddr := rfl
@[simp] theorem fixedTrees_dstCap : s.fixedTrees.dstCap = s.dstCap := rfl
@[simp] theorem fixedTrees_rowBytes : s.fixedTrees.rowBytes = s.rowBytes := rfl
@[simp] theorem fixedTrees_rows : s.fixedTrees.rows = s.rows := rfl
@[simp] theorem fixedTrees_bpp : s.fixedTrees.bpp = s.bpp := rfl
@[simp] theorem fixedTrees_nsym : s.fixedTrees.nsym = s.nsym := rfl
@[simp] theorem fixedTrees_p : s.fixedTrees.p = s.p := rfl
@[simp] theorem fixedTrees_out : s.fixedTrees.out = s.out := rfl
@[simp] theorem fixedTrees_s1 : s.fixedTrees.s1 = s.s1 := rfl
@[simp] theorem fixedTrees_s2 : s.fixedTrees.s2 = s.s2 := rfl
@[simp] theorem fixedTrees_trailer : s.fixedTrees.trailer = s.trailer := rfl
@[simp] theorem fixedTrees_bfinal : s.fixedTrees.bfinal = s.bfinal := rfl
@[simp] theorem fixedTrees_btype : s.fixedTrees.btype = s.btype := rfl
@[simp] theorem fixedTrees_hdrvalid : s.fixedTrees.hdrvalid = s.hdrvalid := rfl
@[simp] theorem fixedTrees_nblocks : s.fixedTrees.nblocks = s.nblocks := rfl
@[simp] theorem fixedTrees_lat : s.fixedTrees.lat = s.lat := rfl
@[simp] theorem fixedTrees_lens : s.fixedTrees.lens = s.lens := rfl
@[simp] theorem fixedTrees_tll : s.fixedTrees.tll = CodeTable.build fixedLitLen := rfl
@[simp] theorem fixedTrees_td : s.fixedTrees.td = CodeTable.build fixedDist := rfl
@[simp] theorem fixedTrees_tcl : s.fixedTrees.tcl = s.tcl := rfl
@[simp] theorem fixedTrees_thb : s.fixedTrees.thb = s.thb := rfl
@[simp] theorem fixedTrees_phase : s.fixedTrees.phase = s.phase := rfl
@[simp] theorem fixedTrees_clCount : s.fixedTrees.clCount = s.clCount := rfl
@[simp] theorem fixedTrees_hlit : s.fixedTrees.hlit = s.hlit := rfl
@[simp] theorem fixedTrees_hdist : s.fixedTrees.hdist = s.hdist := rfl
@[simp] theorem fixedTrees_matchLen : s.fixedTrees.matchLen = s.matchLen := rfl
@[simp] theorem fixedTrees_row : s.fixedTrees.row = s.row := rfl
@[simp] theorem fixedTrees_symIdx : s.fixedTrees.symIdx = s.symIdx := rfl
@[simp] theorem fixedTrees_mem : s.fixedTrees.mem = s.mem := rfl
@[simp] theorem fixedTrees_plat : s.fixedTrees.plat = s.plat := rfl
@[simp] theorem fixedTrees_host : s.fixedTrees.host = s.host := rfl
@[simp] theorem fixedTrees_rdata : s.fixedTrees.rdata = s.rdata := rfl
@[simp] theorem fixedTrees_draws : s.fixedTrees.draws = s.draws := rfl

/-! ### `State.setMatch` -/

@[simp] theorem setMatch_op (n : Nat) : (s.setMatch n).op = s.op := rfl
@[simp] theorem setMatch_ie (n : Nat) : (s.setMatch n).ie = s.ie := rfl
@[simp] theorem setMatch_busy (n : Nat) : (s.setMatch n).busy = s.busy := rfl
@[simp] theorem setMatch_done (n : Nat) : (s.setMatch n).done = s.done := rfl
@[simp] theorem setMatch_errf (n : Nat) : (s.setMatch n).errf = s.errf := rfl
@[simp] theorem setMatch_err (n : Nat) : (s.setMatch n).err = s.err := rfl
@[simp] theorem setMatch_abortReq (n : Nat) : (s.setMatch n).abortReq = s.abortReq := rfl
@[simp] theorem setMatch_resetIn (n : Nat) : (s.setMatch n).resetIn = s.resetIn := rfl
@[simp] theorem setMatch_srcAddr (n : Nat) : (s.setMatch n).srcAddr = s.srcAddr := rfl
@[simp] theorem setMatch_srcLen (n : Nat) : (s.setMatch n).srcLen = s.srcLen := rfl
@[simp] theorem setMatch_dstAddr (n : Nat) : (s.setMatch n).dstAddr = s.dstAddr := rfl
@[simp] theorem setMatch_dstCap (n : Nat) : (s.setMatch n).dstCap = s.dstCap := rfl
@[simp] theorem setMatch_rowBytes (n : Nat) : (s.setMatch n).rowBytes = s.rowBytes := rfl
@[simp] theorem setMatch_rows (n : Nat) : (s.setMatch n).rows = s.rows := rfl
@[simp] theorem setMatch_bpp (n : Nat) : (s.setMatch n).bpp = s.bpp := rfl
@[simp] theorem setMatch_nsym (n : Nat) : (s.setMatch n).nsym = s.nsym := rfl
@[simp] theorem setMatch_p (n : Nat) : (s.setMatch n).p = s.p := rfl
@[simp] theorem setMatch_out (n : Nat) : (s.setMatch n).out = s.out := rfl
@[simp] theorem setMatch_s1 (n : Nat) : (s.setMatch n).s1 = s.s1 := rfl
@[simp] theorem setMatch_s2 (n : Nat) : (s.setMatch n).s2 = s.s2 := rfl
@[simp] theorem setMatch_trailer (n : Nat) : (s.setMatch n).trailer = s.trailer := rfl
@[simp] theorem setMatch_bfinal (n : Nat) : (s.setMatch n).bfinal = s.bfinal := rfl
@[simp] theorem setMatch_btype (n : Nat) : (s.setMatch n).btype = s.btype := rfl
@[simp] theorem setMatch_hdrvalid (n : Nat) : (s.setMatch n).hdrvalid = s.hdrvalid := rfl
@[simp] theorem setMatch_nblocks (n : Nat) : (s.setMatch n).nblocks = s.nblocks := rfl
@[simp] theorem setMatch_lat (n : Nat) : (s.setMatch n).lat = s.lat := rfl
@[simp] theorem setMatch_lens (n : Nat) : (s.setMatch n).lens = s.lens := rfl
@[simp] theorem setMatch_tll (n : Nat) : (s.setMatch n).tll = s.tll := rfl
@[simp] theorem setMatch_td (n : Nat) : (s.setMatch n).td = s.td := rfl
@[simp] theorem setMatch_tcl (n : Nat) : (s.setMatch n).tcl = s.tcl := rfl
@[simp] theorem setMatch_thb (n : Nat) : (s.setMatch n).thb = s.thb := rfl
@[simp] theorem setMatch_phase (n : Nat) : (s.setMatch n).phase = .distSymbol := rfl
@[simp] theorem setMatch_clCount (n : Nat) : (s.setMatch n).clCount = s.clCount := rfl
@[simp] theorem setMatch_hlit (n : Nat) : (s.setMatch n).hlit = s.hlit := rfl
@[simp] theorem setMatch_hdist (n : Nat) : (s.setMatch n).hdist = s.hdist := rfl
@[simp] theorem setMatch_matchLen (n : Nat) : (s.setMatch n).matchLen = n := rfl
@[simp] theorem setMatch_row (n : Nat) : (s.setMatch n).row = s.row := rfl
@[simp] theorem setMatch_symIdx (n : Nat) : (s.setMatch n).symIdx = s.symIdx := rfl
@[simp] theorem setMatch_mem (n : Nat) : (s.setMatch n).mem = s.mem := rfl
@[simp] theorem setMatch_plat (n : Nat) : (s.setMatch n).plat = s.plat := rfl
@[simp] theorem setMatch_host (n : Nat) : (s.setMatch n).host = s.host := rfl
@[simp] theorem setMatch_rdata (n : Nat) : (s.setMatch n).rdata = s.rdata := rfl
@[simp] theorem setMatch_draws (n : Nat) : (s.setMatch n).draws = s.draws := rfl

/-! ### `State.appendLens` -/

@[simp] theorem appendLens_op (r : Nat) (v : BitVec 4) : (s.appendLens r v).op = s.op := rfl
@[simp] theorem appendLens_ie (r : Nat) (v : BitVec 4) : (s.appendLens r v).ie = s.ie := rfl
@[simp] theorem appendLens_busy (r : Nat) (v : BitVec 4) : (s.appendLens r v).busy = s.busy := rfl
@[simp] theorem appendLens_done (r : Nat) (v : BitVec 4) : (s.appendLens r v).done = s.done := rfl
@[simp] theorem appendLens_errf (r : Nat) (v : BitVec 4) : (s.appendLens r v).errf = s.errf := rfl
@[simp] theorem appendLens_err (r : Nat) (v : BitVec 4) : (s.appendLens r v).err = s.err := rfl
@[simp] theorem appendLens_abortReq (r : Nat) (v : BitVec 4) : (s.appendLens r v).abortReq = s.abortReq := rfl
@[simp] theorem appendLens_resetIn (r : Nat) (v : BitVec 4) : (s.appendLens r v).resetIn = s.resetIn := rfl
@[simp] theorem appendLens_srcAddr (r : Nat) (v : BitVec 4) : (s.appendLens r v).srcAddr = s.srcAddr := rfl
@[simp] theorem appendLens_srcLen (r : Nat) (v : BitVec 4) : (s.appendLens r v).srcLen = s.srcLen := rfl
@[simp] theorem appendLens_dstAddr (r : Nat) (v : BitVec 4) : (s.appendLens r v).dstAddr = s.dstAddr := rfl
@[simp] theorem appendLens_dstCap (r : Nat) (v : BitVec 4) : (s.appendLens r v).dstCap = s.dstCap := rfl
@[simp] theorem appendLens_rowBytes (r : Nat) (v : BitVec 4) : (s.appendLens r v).rowBytes = s.rowBytes := rfl
@[simp] theorem appendLens_rows (r : Nat) (v : BitVec 4) : (s.appendLens r v).rows = s.rows := rfl
@[simp] theorem appendLens_bpp (r : Nat) (v : BitVec 4) : (s.appendLens r v).bpp = s.bpp := rfl
@[simp] theorem appendLens_nsym (r : Nat) (v : BitVec 4) : (s.appendLens r v).nsym = s.nsym := rfl
@[simp] theorem appendLens_p (r : Nat) (v : BitVec 4) : (s.appendLens r v).p = s.p := rfl
@[simp] theorem appendLens_out (r : Nat) (v : BitVec 4) : (s.appendLens r v).out = s.out := rfl
@[simp] theorem appendLens_s1 (r : Nat) (v : BitVec 4) : (s.appendLens r v).s1 = s.s1 := rfl
@[simp] theorem appendLens_s2 (r : Nat) (v : BitVec 4) : (s.appendLens r v).s2 = s.s2 := rfl
@[simp] theorem appendLens_trailer (r : Nat) (v : BitVec 4) : (s.appendLens r v).trailer = s.trailer := rfl
@[simp] theorem appendLens_bfinal (r : Nat) (v : BitVec 4) : (s.appendLens r v).bfinal = s.bfinal := rfl
@[simp] theorem appendLens_btype (r : Nat) (v : BitVec 4) : (s.appendLens r v).btype = s.btype := rfl
@[simp] theorem appendLens_hdrvalid (r : Nat) (v : BitVec 4) : (s.appendLens r v).hdrvalid = s.hdrvalid := rfl
@[simp] theorem appendLens_nblocks (r : Nat) (v : BitVec 4) : (s.appendLens r v).nblocks = s.nblocks := rfl
@[simp] theorem appendLens_lat (r : Nat) (v : BitVec 4) : (s.appendLens r v).lat = s.lat := rfl
@[simp] theorem appendLens_lens (r : Nat) (v : BitVec 4) : (s.appendLens r v).lens = setLens s.lens s.clCount r v := rfl
@[simp] theorem appendLens_tll (r : Nat) (v : BitVec 4) : (s.appendLens r v).tll = s.tll := rfl
@[simp] theorem appendLens_td (r : Nat) (v : BitVec 4) : (s.appendLens r v).td = s.td := rfl
@[simp] theorem appendLens_tcl (r : Nat) (v : BitVec 4) : (s.appendLens r v).tcl = s.tcl := rfl
@[simp] theorem appendLens_thb (r : Nat) (v : BitVec 4) : (s.appendLens r v).thb = s.thb := rfl
@[simp] theorem appendLens_phase (r : Nat) (v : BitVec 4) : (s.appendLens r v).phase = s.phase := rfl
@[simp] theorem appendLens_clCount (r : Nat) (v : BitVec 4) : (s.appendLens r v).clCount = s.clCount + r := rfl
@[simp] theorem appendLens_hlit (r : Nat) (v : BitVec 4) : (s.appendLens r v).hlit = s.hlit := rfl
@[simp] theorem appendLens_hdist (r : Nat) (v : BitVec 4) : (s.appendLens r v).hdist = s.hdist := rfl
@[simp] theorem appendLens_matchLen (r : Nat) (v : BitVec 4) : (s.appendLens r v).matchLen = s.matchLen := rfl
@[simp] theorem appendLens_row (r : Nat) (v : BitVec 4) : (s.appendLens r v).row = s.row := rfl
@[simp] theorem appendLens_symIdx (r : Nat) (v : BitVec 4) : (s.appendLens r v).symIdx = s.symIdx := rfl
@[simp] theorem appendLens_mem (r : Nat) (v : BitVec 4) : (s.appendLens r v).mem = s.mem := rfl
@[simp] theorem appendLens_plat (r : Nat) (v : BitVec 4) : (s.appendLens r v).plat = s.plat := rfl
@[simp] theorem appendLens_host (r : Nat) (v : BitVec 4) : (s.appendLens r v).host = s.host := rfl
@[simp] theorem appendLens_rdata (r : Nat) (v : BitVec 4) : (s.appendLens r v).rdata = s.rdata := rfl
@[simp] theorem appendLens_draws (r : Nat) (v : BitVec 4) : (s.appendLens r v).draws = s.draws := rfl

/-! ### `State.pushLength` -/

@[simp] theorem pushLength_op (v : BitVec 4) : (s.pushLength v).op = s.op := rfl
@[simp] theorem pushLength_ie (v : BitVec 4) : (s.pushLength v).ie = s.ie := rfl
@[simp] theorem pushLength_busy (v : BitVec 4) : (s.pushLength v).busy = s.busy := rfl
@[simp] theorem pushLength_done (v : BitVec 4) : (s.pushLength v).done = s.done := rfl
@[simp] theorem pushLength_errf (v : BitVec 4) : (s.pushLength v).errf = s.errf := rfl
@[simp] theorem pushLength_err (v : BitVec 4) : (s.pushLength v).err = s.err := rfl
@[simp] theorem pushLength_abortReq (v : BitVec 4) : (s.pushLength v).abortReq = s.abortReq := rfl
@[simp] theorem pushLength_resetIn (v : BitVec 4) : (s.pushLength v).resetIn = s.resetIn := rfl
@[simp] theorem pushLength_srcAddr (v : BitVec 4) : (s.pushLength v).srcAddr = s.srcAddr := rfl
@[simp] theorem pushLength_srcLen (v : BitVec 4) : (s.pushLength v).srcLen = s.srcLen := rfl
@[simp] theorem pushLength_dstAddr (v : BitVec 4) : (s.pushLength v).dstAddr = s.dstAddr := rfl
@[simp] theorem pushLength_dstCap (v : BitVec 4) : (s.pushLength v).dstCap = s.dstCap := rfl
@[simp] theorem pushLength_rowBytes (v : BitVec 4) : (s.pushLength v).rowBytes = s.rowBytes := rfl
@[simp] theorem pushLength_rows (v : BitVec 4) : (s.pushLength v).rows = s.rows := rfl
@[simp] theorem pushLength_bpp (v : BitVec 4) : (s.pushLength v).bpp = s.bpp := rfl
@[simp] theorem pushLength_nsym (v : BitVec 4) : (s.pushLength v).nsym = s.nsym := rfl
@[simp] theorem pushLength_p (v : BitVec 4) : (s.pushLength v).p = s.p := rfl
@[simp] theorem pushLength_out (v : BitVec 4) : (s.pushLength v).out = s.out := rfl
@[simp] theorem pushLength_s1 (v : BitVec 4) : (s.pushLength v).s1 = s.s1 := rfl
@[simp] theorem pushLength_s2 (v : BitVec 4) : (s.pushLength v).s2 = s.s2 := rfl
@[simp] theorem pushLength_trailer (v : BitVec 4) : (s.pushLength v).trailer = s.trailer := rfl
@[simp] theorem pushLength_bfinal (v : BitVec 4) : (s.pushLength v).bfinal = s.bfinal := rfl
@[simp] theorem pushLength_btype (v : BitVec 4) : (s.pushLength v).btype = s.btype := rfl
@[simp] theorem pushLength_hdrvalid (v : BitVec 4) : (s.pushLength v).hdrvalid = s.hdrvalid := rfl
@[simp] theorem pushLength_nblocks (v : BitVec 4) : (s.pushLength v).nblocks = s.nblocks := rfl
@[simp] theorem pushLength_lat (v : BitVec 4) : (s.pushLength v).lat = s.lat := rfl
@[simp] theorem pushLength_lens (v : BitVec 4) : (s.pushLength v).lens = s.lens.set s.symIdx v := rfl
@[simp] theorem pushLength_tll (v : BitVec 4) : (s.pushLength v).tll = s.tll := rfl
@[simp] theorem pushLength_td (v : BitVec 4) : (s.pushLength v).td = s.td := rfl
@[simp] theorem pushLength_tcl (v : BitVec 4) : (s.pushLength v).tcl = s.tcl := rfl
@[simp] theorem pushLength_thb (v : BitVec 4) : (s.pushLength v).thb = s.thb := rfl
@[simp] theorem pushLength_phase (v : BitVec 4) : (s.pushLength v).phase = s.phase := rfl
@[simp] theorem pushLength_clCount (v : BitVec 4) : (s.pushLength v).clCount = s.clCount := rfl
@[simp] theorem pushLength_hlit (v : BitVec 4) : (s.pushLength v).hlit = s.hlit := rfl
@[simp] theorem pushLength_hdist (v : BitVec 4) : (s.pushLength v).hdist = s.hdist := rfl
@[simp] theorem pushLength_matchLen (v : BitVec 4) : (s.pushLength v).matchLen = s.matchLen := rfl
@[simp] theorem pushLength_row (v : BitVec 4) : (s.pushLength v).row = s.row := rfl
@[simp] theorem pushLength_symIdx (v : BitVec 4) : (s.pushLength v).symIdx = s.symIdx + 1 := rfl
@[simp] theorem pushLength_mem (v : BitVec 4) : (s.pushLength v).mem = s.mem := rfl
@[simp] theorem pushLength_plat (v : BitVec 4) : (s.pushLength v).plat = s.plat := rfl
@[simp] theorem pushLength_host (v : BitVec 4) : (s.pushLength v).host = s.host := rfl
@[simp] theorem pushLength_rdata (v : BitVec 4) : (s.pushLength v).rdata = s.rdata := rfl
@[simp] theorem pushLength_draws (v : BitVec 4) : (s.pushLength v).draws = s.draws := rfl

end Sys2Proof.Machine
end

