-- ==== Sys2Proof/Laws/Ops.lean ====
section
/-! SUPPORT. The shared operations: what each primitive answers, and what it can change, said once. Later proofs cite
these and do not unfold the primitives. -/

namespace Sys2Proof.Machine

/-! ### Pieces of pseudocode -/

/-- The state a piece ends in, with a value or with a raise. -/
def Res.state {α : Type} : Res α → State
  | .ok _ s => s
  | .raised _ s => s

@[simp] theorem Res.state_ok {α : Type} (a : α) (s : State) : (Res.ok a s).state = s := rfl
@[simp] theorem Res.state_raised {α : Type} (e : ErrCode) (s : State) : (Res.raised e s : Res α).state = s := rfl

@[simp] theorem Act.pure_apply {α : Type} (a : α) (s : State) : Act.pure a s = .ok a s := rfl
@[simp] theorem engineSet_apply (f : State → State) (s : State) : engineSet f s = .ok () (f s) := rfl
@[simp] theorem raiseErr_apply {α : Type} (e : ErrCode) (s : State) : (raiseErr e : Act α) s = .raised e s := rfl

theorem Act.bind_ok {α β : Type} {m : Act α} {f : α → Act β} {s s' : State} {a : α} (h : m s = .ok a s') :
    m.bind f s = f a s' := by simp [Act.bind, h]

theorem Act.bind_raised {α β : Type} {m : Act α} {f : α → Act β} {s s' : State} {e : ErrCode}
    (h : m s = .raised e s') : m.bind f s = .raised e s' := by simp [Act.bind, h]

/-- A piece that answers a value ran both its parts. -/
theorem Act.bind_eq_ok {α β : Type} {m : Act α} {f : α → Act β} {s t : State} {b : β} (h : m.bind f s = .ok b t) :
    ∃ a s', m s = .ok a s' ∧ f a s' = .ok b t := by
  cases hm : m s with
  | ok a s' => exact ⟨a, s', rfl, by rwa [Act.bind_ok hm] at h⟩
  | raised e s' => rw [Act.bind_raised hm] at h; cases h

/-- A piece that raises did so in one of its parts. -/
theorem Act.bind_eq_raised {α β : Type} {m : Act α} {f : α → Act β} {s t : State} {e : ErrCode}
    (h : m.bind f s = .raised e t) : m s = .raised e t ∨ ∃ a s', m s = .ok a s' ∧ f a s' = .raised e t := by
  cases hm : m s with
  | ok a s' => exact .inr ⟨a, s', rfl, by rwa [Act.bind_ok hm] at h⟩
  | raised e' s' => rw [Act.bind_raised hm] at h; cases h; exact .inl rfl

theorem Act.bind_assoc {α β γ : Type} (m : Act α) (f : α → Act β) (g : β → Act γ) :
    (m.bind f).bind g = m.bind fun a => (f a).bind g := by
  funext s
  cases hm : m s with
  | ok a s' => simp [Act.bind, hm]
  | raised e s' => simp [Act.bind, hm]

/-! ### A relation that a piece keeps between its first and its last state -/

/-- Whatever the piece answers, its last state stands in the relation to its first. -/
def Act.Within {α : Type} (R : State → State → Prop) (m : Act α) : Prop := ∀ s, R s (m s).state

theorem Within.pure {α : Type} {R : State → State → Prop} (hr : ∀ s, R s s) (a : α) :
    Act.Within R (Act.pure a) := fun s => hr s

theorem Within.bind {α β : Type} {R : State → State → Prop} (ht : ∀ {a b c}, R a b → R b c → R a c)
    {m : Act α} {f : α → Act β} (hm : m.Within R) (hf : ∀ a, (f a).Within R) : (m.bind f).Within R := by
  intro s
  have h := hm s
  cases hms : m s with
  | ok a s' =>
    rw [hms] at h
    rw [Act.bind_ok hms]
    exact ht h (hf a s')
  | raised e s' =>
    rw [hms] at h
    rwa [Act.bind_raised hms]

theorem Within.mono {α : Type} {R R' : State → State → Prop} (h : ∀ {a b}, R a b → R' a b) {m : Act α}
    (hm : m.Within R) : m.Within R' := fun s => h (hm s)

/-- Only the bit cursor and the count of free values differ. -/
def OnlyCursor (s t : State) : Prop := t = { s with p := t.p, draws := t.draws }

theorem OnlyCursor.refl (s : State) : OnlyCursor s s := rfl

theorem OnlyCursor.trans {a b c : State} (h : OnlyCursor a b) (h' : OnlyCursor b c) : OnlyCursor a c := by
  unfold OnlyCursor at *
  rw [h'] ; rw [h]

/-- Only the bit cursor, the output with its sums, memory and the count of free values differ. -/
def OnlyStream (s t : State) : Prop :=
  t = { s with p := t.p, draws := t.draws, out := t.out, s1 := t.s1, s2 := t.s2, mem := t.mem }

theorem OnlyStream.refl (s : State) : OnlyStream s s := rfl

theorem OnlyStream.trans {a b c : State} (h : OnlyStream a b) (h' : OnlyStream b c) : OnlyStream a c := by
  unfold OnlyStream at *
  rw [h'] ; rw [h]

theorem OnlyCursor.stream {s t : State} (h : OnlyCursor s t) : OnlyStream s t := by
  unfold OnlyCursor at h
  unfold OnlyStream
  rw [h]

theorem cursor_bind {α β : Type} {m : Act α} {f : α → Act β} (hm : m.Within OnlyCursor)
    (hf : ∀ a, (f a).Within OnlyCursor) : (m.bind f).Within OnlyCursor :=
  Within.bind (R := OnlyCursor) (fun h h' => h.trans h') hm hf

theorem stream_bind {α β : Type} {m : Act α} {f : α → Act β} (hm : m.Within OnlyStream)
    (hf : ∀ a, (f a).Within OnlyStream) : (m.bind f).Within OnlyStream :=
  Within.bind (R := OnlyStream) (fun h h' => h.trans h') hm hf

theorem cursor_stream {α : Type} {m : Act α} (hm : m.Within OnlyCursor) : m.Within OnlyStream :=
  Within.mono (R := OnlyCursor) (fun h => h.stream) hm

theorem cursor_pure {α : Type} (a : α) : (Act.pure a).Within OnlyCursor := Within.pure OnlyCursor.refl a

theorem stream_pure {α : Type} (a : α) : (Act.pure a).Within OnlyStream := Within.pure OnlyStream.refl a

/-! ### Step boundaries -/

theorem boundary_quiet {s : State} (h : Quiet s) : boundary s = .ok () s := by
  have h : s.abortReq = false := h
  simp [boundary, h]

/-- What a step boundary can answer. -/
theorem boundary_cases (s : State) :
    boundary s = .ok () s ∨ boundary s = .ok () s.drawn ∨
      (s.abortReq = true ∧ boundary s = .raised .aborted s.drawn) := by
  unfold boundary
  split
  · rename_i h
    rw [Bool.and_eq_true] at h
    split
    · exact .inr (.inr ⟨h.1, rfl⟩)
    · exact .inr (.inl rfl)
  · exact .inl rfl

/-- A boundary that raises was picked by its draw. -/
theorem boundary_raised {s t : State} {e : ErrCode} (h : boundary s = .raised e t) :
    e = .aborted ∧ t = s.drawn ∧ s.abortReq = true ∧ s.p ≠ 0 ∧ Config.abortPoint s.draws = true := by
  unfold boundary at h
  split at h
  · rename_i hc
    simp only [Bool.and_eq_true, bne_iff_ne] at hc
    split at h
    · cases h
      exact ⟨rfl, rfl, hc.1, hc.2, ‹_›⟩
    · cases h
  · cases h

/-- A boundary that is passed met no draw, or one that did not pick it. -/
theorem boundary_passed {s t : State} (h : boundary s = .ok () t) :
    t = s ∨ (t = s.drawn ∧ Config.abortPoint s.draws = false) := by
  unfold boundary at h
  split at h
  · split at h
    · cases h
    · cases h
      exact .inr ⟨rfl, Bool.eq_false_iff.2 ‹_›⟩
  · cases h
    exact .inl rfl

/-- A boundary whose draw picks it. -/
theorem boundary_picked {s : State} (ha : s.abortReq = true) (hp : s.p ≠ 0) (hd : Config.abortPoint s.draws = true) :
    boundary s = .raised .aborted s.drawn := by
  have hp : (s.p != 0) = true := bne_iff_ne.2 hp
  simp only [boundary, ha, hp, hd, Bool.and_self, if_true]

/-- There is no boundary before the first primitive of a command. -/
theorem boundary_first {s : State} (h : s.p = 0) : boundary s = .ok () s := by simp [boundary, h]

theorem boundary_within : boundary.Within OnlyCursor := by
  intro s
  rcases boundary_cases s with h | h | ⟨-, h⟩ <;> rw [h] <;> rfl

/-! ### The bit cursor -/

theorem peekBit_le_one (s : State) (q : Nat) : peekBit s q ≤ 1 := by
  unfold peekBit
  split
  · omega
  · omega

theorem bitsValue_lt {bit : Nat → Nat} (h : ∀ i, bit i ≤ 1) (n : Nat) : bitsValue bit n < 2 ^ n := by
  induction n with
  | zero => simp [bitsValue]
  | succ n ih =>
    have hb := h n
    rw [bitsValue, pow_succ]
    have : bit n * 2 ^ n ≤ 1 * 2 ^ n := Nat.mul_le_mul_right _ hb
    omega

theorem peekBits_lt (s : State) (n : Nat) : peekBits s n < 2 ^ n :=
  bitsValue_lt (fun _ => peekBit_le_one s _) n

theorem readBits_ok {s : State} {n : Nat} (hq : Quiet s) (h : HasBits s n) :
    readBits n s = .ok (peekBits s n) (s.setP (s.p.toNat + n)) := by
  rw [readBits, Act.bind_ok (boundary_quiet hq), if_neg (Nat.not_lt.2 h)]

theorem readBits_truncated {s : State} {n : Nat} (hq : Quiet s) (h : ¬HasBits s n) :
    readBits n s = .raised .truncated s := by
  rw [readBits, Act.bind_ok (boundary_quiet hq), if_pos (Nat.not_le.1 h)]

/-- What reading bits can answer. -/
theorem readBits_cases (n : Nat) (s : State) :
    (∃ s' v, OnlyCursor s s' ∧ s'.p = s.p ∧ HasBits s n ∧ v < 2 ^ n ∧ readBits n s = .ok v (s'.setP (s.p.toNat + n))) ∨
      ∃ s' e, OnlyCursor s s' ∧ s'.p = s.p ∧ readBits n s = .raised e s' := by
  have key : ∀ s', OnlyCursor s s' → s'.p = s.p → boundary s = .ok () s' →
      (∃ s' v, OnlyCursor s s' ∧ s'.p = s.p ∧ HasBits s n ∧ v < 2 ^ n ∧
        readBits n s = .ok v (s'.setP (s.p.toNat + n))) ∨
      ∃ s' e, OnlyCursor s s' ∧ s'.p = s.p ∧ readBits n s = .raised e s' := by
    intro s' hc hp hb
    have hi : inputBits s' = inputBits s := by unfold OnlyCursor at hc; rw [hc]; rfl
    by_cases h : HasBits s n
    · refine .inl ⟨s', peekBits s' n, hc, hp, h, peekBits_lt s' n, ?_⟩
      rw [readBits, Act.bind_ok hb, if_neg (by rw [hi, hp]; exact Nat.not_lt.2 h), hp]
    · refine .inr ⟨s', .truncated, hc, hp, ?_⟩
      rw [readBits, Act.bind_ok hb, if_pos (by rw [hi, hp]; exact Nat.not_le.1 h)]
  rcases boundary_cases s with h | h | ⟨-, h⟩
  · exact key s rfl rfl h
  · exact key s.drawn rfl rfl h
  · exact .inr ⟨s.drawn, .aborted, rfl, rfl, by rw [readBits, Act.bind_raised h]⟩

theorem readBits_within (n : Nat) : (readBits n).Within OnlyCursor := by
  refine cursor_bind boundary_within fun _ s => ?_
  split <;> rfl

theorem alignToByte_ok {s : State} (hq : Quiet s) :
    alignToByte s = .ok () (s.setP (8 * ((s.p.toNat + 7) / 8))) := by
  rw [alignToByte, Act.bind_ok (boundary_quiet hq)]

theorem alignToByte_within : alignToByte.Within OnlyCursor :=
  cursor_bind boundary_within fun _ _ => rfl

/-- DecodeSym on a code that lies inside the input. -/
theorem decodeSym_ok {s : State} {t : CodeTable} {sym len : Nat} (hq : Quiet s)
    (h : t.decode (fun i => peekBit s (s.p.toNat + i)) = some (sym, len)) (hb : HasBits s len) :
    decodeSym t s = .ok sym (s.setP (s.p.toNat + len)) := by
  rw [decodeSym, Act.bind_ok (boundary_quiet hq)]
  simp only [h]
  exact if_neg (Nat.not_lt.2 hb)

/-- DecodeSym where no code matches. -/
theorem decodeSym_miss {s : State} {t : CodeTable} (hq : Quiet s)
    (h : t.decode (fun i => peekBit s (s.p.toNat + i)) = none) :
    decodeSym t s = .raised .invalidHuffmanSymbol s := by
  rw [decodeSym, Act.bind_ok (boundary_quiet hq)]
  simp only [h]
  rfl

/-- DecodeSym on a code that reaches past the input's end. -/
theorem decodeSym_truncated {s : State} {t : CodeTable} {sym len : Nat} (hq : Quiet s)
    (h : t.decode (fun i => peekBit s (s.p.toNat + i)) = some (sym, len)) (hb : ¬HasBits s len) :
    decodeSym t s = .raised .truncated s := by
  rw [decodeSym, Act.bind_ok (boundary_quiet hq)]
  simp only [h]
  exact if_pos (Nat.not_le.1 hb)

theorem decodeSym_within (t : CodeTable) : (decodeSym t).Within OnlyCursor := by
  refine cursor_bind boundary_within fun _ s => ?_
  unfold takeSymbol
  split
  · rfl
  · split <;> rfl

theorem readFields_within (n k : Nat) : (readFields n k).Within OnlyCursor := by
  induction k with
  | zero => exact cursor_pure _
  | succ k ih =>
    exact cursor_bind (readBits_within n) fun v =>
      cursor_bind ih fun _ => cursor_pure _

/-! ### The output -/

theorem stoppedAtEmit_low {s : State} (h : s.resetIn = false) : s.stoppedAtEmit = s := by simp [State.stoppedAtEmit, h]

/-- Being stopped at an `Emit` changes at most the byte being written, by a free value. -/
theorem stoppedAtEmit_cases (s : State) : s.stoppedAtEmit = s ∨
    (s.resetIn = true ∧ s.out.toNat < s.lat.dstCap.toNat ∧ ∃ b,
      s.stoppedAtEmit = { s with mem := memWrite s.mem (destAddr s s.out.toNat) b, draws := s.draws + 1 }) := by
  unfold State.stoppedAtEmit
  split
  · rename_i h
    simp only [Bool.and_eq_true, decide_eq_true_eq] at h
    exact .inr ⟨h.1.1, h.1.2, _, rfl⟩
  · exact .inl rfl

theorem emitBoundary_quiet {s : State} (h : Quiet s) : emitBoundary s = .ok () s := by
  rw [emitBoundary, boundary_quiet h]

/-- With the reset input low, the boundary before an `Emit` is a boundary like any other. -/
theorem emitBoundary_low {s : State} (h : s.resetIn = false) : emitBoundary s = boundary s := by
  unfold emitBoundary
  rcases boundary_cases s with hb | hb | ⟨-, hb⟩ <;> rw [hb]
  exact congrArg (Res.raised .aborted) (stoppedAtEmit_low (s := s.drawn) h)

theorem emitBoundary_within : emitBoundary.Within OnlyStream := by
  intro s
  unfold emitBoundary
  rcases boundary_cases s with h | h | ⟨-, h⟩ <;> rw [h]
  · rfl
  · rfl
  · rcases stoppedAtEmit_cases s.drawn with h | ⟨-, -, b, h⟩ <;> simp only [Res.state_raised, h] <;> rfl

theorem emit_ok {s : State} (hq : Quiet s) (h : HasRoom s 1) (b : Byte) : emit b s = .ok () (s.emitted b) := by
  have h : s.out.toNat + 1 ≤ s.lat.dstCap.toNat := h
  rw [emit, Act.bind_ok (emitBoundary_quiet hq), if_neg (by omega)]

theorem emit_overflow {s : State} (hq : Quiet s) (h : ¬HasRoom s 1) (b : Byte) :
    emit b s = .raised .outputOverflow s := by
  have h : ¬s.out.toNat + 1 ≤ s.lat.dstCap.toNat := h
  rw [emit, Act.bind_ok (emitBoundary_quiet hq), if_pos (by omega)]

theorem emit_within (b : Byte) : (emit b).Within OnlyStream := by
  refine stream_bind emitBoundary_within fun _ s => ?_
  split <;> rfl

theorem outByte_ok {s : State} (hq : Quiet s) (k : Nat) : outByte k s = .ok (outputByte s k) s := by
  rw [outByte, Act.bind_ok (boundary_quiet hq)]

theorem outByte_within (k : Nat) : (outByte k).Within OnlyCursor :=
  cursor_bind boundary_within fun _ _ => rfl

theorem emitBytes_within (bytes : List Byte) : (emitBytes bytes).Within OnlyStream := by
  induction bytes with
  | nil => exact stream_pure _
  | cons b bytes ih => exact stream_bind (emit_within b) fun _ => ih

theorem copyStored_within (n : Nat) : (copyStored n).Within OnlyStream := by
  induction n with
  | zero => exact stream_pure _
  | succ n ih =>
    exact stream_bind (cursor_stream (readBits_within 8)) fun _ =>
      stream_bind (emit_within _) fun _ => ih

theorem copyMatch_within (dist n : Nat) : (copyMatch dist n).Within OnlyStream := by
  induction n with
  | zero => exact stream_pure _
  | succ n ih =>
    intro s
    exact stream_bind (cursor_stream (outByte_within _)) (fun _ =>
      stream_bind (emit_within _) fun _ => ih) s

theorem neighbour_within (inside : Bool) (k : Nat) : (neighbour inside k).Within OnlyCursor := by
  unfold neighbour
  split
  · exact cursor_bind (outByte_within k) fun _ => cursor_pure _
  · exact cursor_pure _

theorem neighbours_within (i rowstart : Nat) : (neighbours i rowstart).Within OnlyCursor := by
  intro s
  exact cursor_bind (neighbour_within _ _) (fun _ =>
    cursor_bind (neighbour_within _ _) fun _ =>
      cursor_bind (neighbour_within _ _) fun _ => cursor_pure _) s

theorem unfilterBytes_within (pred : Nat → Nat → Nat → Nat) (rowstart i n : Nat) :
    (unfilterBytes pred rowstart i n).Within OnlyStream := by
  induction n generalizing i with
  | zero => exact stream_pure _
  | succ n ih =>
    exact stream_bind (cursor_stream (readBits_within 8)) fun _ =>
      stream_bind (cursor_stream (neighbours_within _ _)) fun _ =>
        stream_bind (emit_within _) fun _ => ih _

/-! ### Fetching -/

theorem fetchValue_within (f : Format) : (fetchValue f).Within OnlyCursor := by
  cases f with
  | cmd => exact cursor_pure _
  | status => exact cursor_pure _
  | zhdr => exact cursor_bind (readBits_within _) fun _ => cursor_bind (readBits_within _) fun _ => cursor_pure _
  | bhdr => exact cursor_bind (readBits_within _) fun _ => cursor_bind (readBits_within _) fun _ => cursor_pure _
  | stored =>
    exact cursor_bind alignToByte_within fun _ => cursor_bind (readBits_within _) fun _ =>
      cursor_bind (readBits_within _) fun _ => cursor_pure _
  | dynHdr =>
    exact cursor_bind (readBits_within _) fun _ => cursor_bind (readBits_within _) fun _ =>
      cursor_bind (readBits_within _) fun _ => cursor_pure _
  | clSym => exact fun s => decodeSym_within _ s
  | litLen => exact fun s => decodeSym_within _ s
  | dist => exact fun s => decodeSym_within _ s
  | trailer =>
    exact cursor_bind alignToByte_within fun _ => cursor_bind (readBits_within _) fun _ =>
      cursor_bind (readBits_within _) fun _ => cursor_bind (readBits_within _) fun _ =>
        cursor_bind (readBits_within _) fun _ => cursor_pure _
  | filterRow => exact readBits_within _
  | codeLen => exact readBits_within _

/-! ### The end of a token -/

@[simp] theorem tokenEnd_ok (s : State) : tokenEnd (.ok () s) = .next s := rfl
@[simp] theorem tokenEnd_raised (e : ErrCode) (s : State) : tokenEnd (.raised e s) = .next (s.complete e) := rfl

/-- A token always answers a next state. -/
theorem tokenEnd_next (r : Res Unit) : ∃ t, tokenEnd r = .next t := by
  cases r <;> exact ⟨_, rfl⟩

end Sys2Proof.Machine
end

