-- ==== Sys2Proof/Laws/Output.lean ====
section
/-! SUPPORT. The output: what a run of emitted bytes leaves, and the loops that emit, where no abort is requested and
input and room suffice. -/

namespace Sys2Proof.Machine

/-! ### The two ranges of a command -/

theorem LegalRanges.dest_eq {s : State} (h : LegalRanges s.lat) {k : Nat} (hk : k < s.lat.dstCap.toNat) :
    destAddr s k = s.lat.dstAddr.toNat + k := by
  have hd := h.2.2.1
  simp only [Config.addrSpace] at hd
  have hc := s.lat.dstCap.isLt
  simp only [destAddr, BitVec.toNat_add, BitVec.toNat_ofNat]
  omega

theorem LegalRanges.input_eq {s : State} (h : LegalRanges s.lat) {j : Nat} (hj : j < s.lat.srcLen.toNat) :
    (s.lat.srcAddr + BitVec.ofNat 32 j).toNat = s.lat.srcAddr.toNat + j := by
  have hd := h.2.1
  simp only [Config.addrSpace] at hd
  have hc := s.lat.srcLen.isLt
  simp only [BitVec.toNat_add, BitVec.toNat_ofNat]
  omega

theorem LegalRanges.apart {s : State} (h : LegalRanges s.lat) {j k : Nat} (hj : j < s.lat.srcLen.toNat)
    (hk : k < s.lat.dstCap.toNat) : (s.lat.srcAddr + BitVec.ofNat 32 j).toNat ≠ destAddr s k := by
  rw [h.dest_eq hk, h.input_eq hj]
  have hm := h.2.2.2
  simp only [rangesMeet, Bool.and_eq_false_iff, decide_eq_false_iff_not] at hm
  omega

/-- The bit cursor of an input that R122 admits does not wrap. -/
theorem bits_lt {s : State} (h : s.lat.srcLen.toNat ≤ Config.srcLenMax) {n : Nat} (hn : HasBits s n) :
    s.p.toNat + n < 2 ^ 32 := by
  have hn : s.p.toNat + n ≤ 8 * s.lat.srcLen.toNat := hn
  simp only [Config.srcLenMax] at h
  omega

theorem setP_toNat {s : State} {q : Nat} (h : q < 2 ^ 32) : (s.setP q).p.toNat = q := by
  simp only [State.setP, BitVec.toNat_ofNat]
  omega

/-! ### What a run of emitted bytes leaves -/

/-- `t` follows `s` by the output of the bytes `g 0` to `g (n − 1)`, with the bit cursor at `q`. -/
structure Emitted (s t : State) (n q : Nat) (g : Nat → Byte) : Prop where
  frame : t = { s with p := BitVec.ofNat 32 q, out := t.out, s1 := t.s1, s2 := t.s2, mem := t.mem }
  out : t.out.toNat = s.out.toNat + n
  sums : (t.s1, t.s2) = adlerRun (s.s1, s.s2) ((List.range n).map g)
  bytes : ∀ k < n, outputByte t (s.out.toNat + k) = g k
  rest : OnlyOutputBytes s t s.out.toNat (s.out.toNat + n)
  wf : Memory.wf t.mem

theorem Emitted.refl {s : State} (h : Memory.wf s.mem) (g : Nat → Byte) : Emitted s s 0 s.p.toNat g where
  frame := by simp
  out := rfl
  sums := rfl
  bytes := fun k hk => absurd hk (Nat.not_lt_zero k)
  rest := fun _ _ => rfl
  wf := h

theorem Emitted.lat {s t : State} {n q : Nat} {g : Nat → Byte} (h : Emitted s t n q g) : t.lat = s.lat := by
  rw [h.frame]

theorem Emitted.abortReq {s t : State} {n q : Nat} {g : Nat → Byte} (h : Emitted s t n q g) :
    t.abortReq = s.abortReq := by
  rw [h.frame]

theorem Emitted.row {s t : State} {n q : Nat} {g : Nat → Byte} (h : Emitted s t n q g) : t.row = s.row := by
  rw [h.frame]

theorem Emitted.p {s t : State} {n q : Nat} {g : Nat → Byte} (h : Emitted s t n q g) (hq : q < 2 ^ 32) :
    t.p.toNat = q :=
  (congrArg (fun x => x.p.toNat) h.frame).trans (setP_toNat (s := s) hq)

theorem Emitted.quiet {s t : State} {n q : Nat} {g : Nat → Byte} (h : Emitted s t n q g) (hs : Quiet s) : Quiet t :=
  h.abortReq.trans hs

theorem Emitted.destAddr {s t : State} {n q : Nat} {g : Nat → Byte} (h : Emitted s t n q g) (k : Nat) :
    destAddr t k = destAddr s k := by
  simp only [Machine.destAddr, h.lat]

/-- The adler sums after one more byte. -/
theorem adlerRun_snoc (sums : BitVec 16 × BitVec 16) (bytes : List Byte) (b : Byte) :
    adlerRun sums (bytes ++ [b]) =
      (adlerS1 (adlerRun sums bytes).1 b, adlerS2 (adlerRun sums bytes).2 (adlerS1 (adlerRun sums bytes).1 b)) := by
  simp [adlerRun, List.foldl_append]

/-- One more byte, after the cursor was moved to `q'`. -/
theorem Emitted.step {s t : State} {n q : Nat} {g : Nat → Byte} (h : Emitted s t n q g) (hl : LegalRanges s.lat)
    (hroom : s.out.toNat + n < s.lat.dstCap.toNat) (q' : Nat) :
    Emitted s ((t.setP q').emitted (g n)) (n + 1) q' g := by
  have hc := s.lat.dstCap.isLt
  have hd : Machine.destAddr (t.setP q') (t.setP q').out.toNat = Machine.destAddr s (s.out.toNat + n) := by
    rw [show Machine.destAddr (t.setP q') (t.setP q').out.toNat = Machine.destAddr t t.out.toNat from rfl, h.destAddr,
      h.out]
  have hmem : ((t.setP q').emitted (g n)).mem = memWrite t.mem (Machine.destAddr s (s.out.toNat + n)) (g n) := by
    rw [← hd]; rfl
  have hout : ((t.setP q').emitted (g n)).out.toNat = s.out.toNat + (n + 1) := by
    show (BitVec.ofNat 32 (t.out.toNat + 1)).toNat = _
    rw [h.out, BitVec.toNat_ofNat]
    omega
  have hdest : ∀ k, Machine.destAddr ((t.setP q').emitted (g n)) k = Machine.destAddr s k := fun k => h.destAddr k
  refine ⟨?_, hout, ?_, ?_, ?_, ?_⟩
  · exact congrArg (fun x : State =>
      { x with p := BitVec.ofNat 32 q', out := ((t.setP q').emitted (g n)).out,
               s1 := ((t.setP q').emitted (g n)).s1, s2 := ((t.setP q').emitted (g n)).s2,
               mem := ((t.setP q').emitted (g n)).mem }) h.frame
  · show (adlerS1 t.s1 (g n), adlerS2 t.s2 (adlerS1 t.s1 (g n))) = _
    rw [List.range_succ, List.map_append, List.map_singleton, adlerRun_snoc, ← h.sums]
  · intro k hk
    show memRead ((t.setP q').emitted (g n)).mem (Machine.destAddr ((t.setP q').emitted (g n)) _) = _
    rw [hmem, hdest]
    by_cases hkn : k = n
    · subst hkn
      exact memRead_memWrite_same h.wf _ _
    · rw [memRead_memWrite_other _ (by
        rw [hl.dest_eq (by omega), hl.dest_eq (by omega)]
        omega)]
      have := h.bytes k (by omega)
      rwa [outputByte, h.destAddr] at this
  · intro a ha
    rw [hmem, memRead_memWrite_other _ (ha (s.out.toNat + n) (by omega) (by omega))]
    exact h.rest a fun k hk hk' => ha k hk (by omega)
  · rw [hmem]
    refine memWf_memWrite h.wf ?_ _
    rw [hl.dest_eq (by omega)]
    have := hl.2.2.1
    omega

/-- The bytes written so far do not change the input. -/
theorem Emitted.peekBit {s t : State} {n q : Nat} {g : Nat → Byte} (h : Emitted s t n q g) (hl : LegalRanges s.lat)
    (hroom : s.out.toNat + n ≤ s.lat.dstCap.toNat) (x : Nat) : peekBit t x = peekBit s x := by
  unfold Machine.peekBit inputBits inputByte
  rw [h.lat]
  split
  · rw [h.rest _ fun k hk hk' => hl.apart (by omega) (by omega)]
  · rfl

theorem Emitted.inputField {s t : State} {n q : Nat} {g : Nat → Byte} (h : Emitted s t n q g)
    (hl : LegalRanges s.lat) (hroom : s.out.toNat + n ≤ s.lat.dstCap.toNat) (x m : Nat) :
    inputField t x m = inputField s x m := by
  unfold Machine.inputField
  simp only [h.peekBit hl hroom]

/-- An output byte from before the run reads as before. -/
theorem Emitted.earlier {s t : State} {n q : Nat} {g : Nat → Byte} (h : Emitted s t n q g) (hl : LegalRanges s.lat)
    (hroom : s.out.toNat + n ≤ s.lat.dstCap.toNat) {k : Nat} (hk : k < s.out.toNat) :
    outputByte t k = outputByte s k := by
  unfold outputByte
  rw [h.destAddr]
  refine h.rest _ fun j hj hj' => ?_
  rw [hl.dest_eq (by omega), hl.dest_eq (by omega)]
  omega

theorem Emitted.emits {s t : State} {n q : Nat} {g : Nat → Byte} (h : Emitted s t n q g) : Emits s t n := by
  refine ⟨h.out, ?_, h.rest⟩
  rw [h.sums, outputSlice]
  congr 1
  exact List.map_congr_left fun k hk => (h.bytes k (List.mem_range.1 hk)).symm

/-- Emitting one byte on after a run. -/
theorem Emitted.emit {s t : State} {n q : Nat} {g : Nat → Byte} (h : Emitted s t n q g) (hq : Quiet s)
    (hroom : s.out.toNat + n < s.lat.dstCap.toNat) (q' : Nat) :
    emit (g n) (t.setP q') = .ok () ((t.setP q').emitted (g n)) :=
  emit_ok (s := t.setP q') (h.quiet hq) (by
    show t.out.toNat + 1 ≤ t.lat.dstCap.toNat
    rw [h.lat, h.out]; omega) _

theorem setP_self {s : State} {q : Nat} (h : s.p = BitVec.ofNat 32 q) : s.setP q = s := by
  rw [State.setP, ← h]

theorem Emitted.setP {s t : State} {n q : Nat} {g : Nat → Byte} (h : Emitted s t n q g) : t.setP q = t := by
  refine setP_self ?_
  rw [h.frame]

/-- Reading on after a run. -/
theorem Emitted.readBits {s t : State} {n q : Nat} {g : Nat → Byte} (h : Emitted s t n q g) (hq : Quiet s)
    (hl : LegalRanges s.lat) (hroom : s.out.toNat + n ≤ s.lat.dstCap.toNat) {m : Nat} (hb : q + m ≤ inputBits s) :
    readBits m t = .ok (Machine.inputField s q m) (t.setP (q + m)) := by
  have hlt : q + m < 2 ^ 32 := by
    have h1 := hl.1
    simp only [Config.srcLenMax] at h1
    have : inputBits s = 8 * s.lat.srcLen.toNat := rfl
    omega
  have hp : t.p.toNat = q := h.p (by omega)
  have hi : inputBits t = inputBits s := by simp only [inputBits, h.lat]
  rw [readBits_ok (h.quiet hq) (by rw [HasBits, hp, hi]; exact hb), hp]
  congr 1
  rw [← h.inputField hl hroom, peekBits, hp]
  rfl

/-! ### The loops that emit -/

theorem copyStored_run {s : State} {g : Nat → Byte} {q0 : Nat} (hq : Quiet s) (hl : LegalRanges s.lat)
    (hg : ∀ k, g k = BitVec.ofNat 8 (inputField s (q0 + 8 * k) 8)) (n : Nat) :
    ∀ {t : State} {k : Nat}, Emitted s t k (q0 + 8 * k) g → q0 + 8 * (k + n) ≤ inputBits s →
      s.out.toNat + (k + n) ≤ s.lat.dstCap.toNat →
        ∃ u, copyStored n t = .ok () u ∧ Emitted s u (k + n) (q0 + 8 * (k + n)) g := by
  induction n with
  | zero => exact fun h _ _ => ⟨_, rfl, h⟩
  | succ n ih =>
    intro t k h hb hroom
    have hstep := h.step hl (by omega) (q0 + 8 * (k + 1))
    obtain ⟨u, hu, he⟩ := ih hstep (by omega) (by omega)
    refine ⟨u, ?_, by rwa [show k + (n + 1) = k + 1 + n by omega]⟩
    rw [copyStored, Act.bind_ok (h.readBits hq hl (by omega) (m := 8) (by omega))]
    simp only [← hg]
    rw [show q0 + 8 * k + 8 = q0 + 8 * (k + 1) by omega, Act.bind_ok (h.emit hq (by omega) _)]
    exact hu

theorem emitBytes_run {s : State} {q0 : Nat} (hq : Quiet s) (hl : LegalRanges s.lat) {g : Nat → Byte}
    (bytes : List Byte) :
    ∀ {t : State} {k : Nat}, Emitted s t k q0 g → (∀ j < bytes.length, bytes.getD j 0 = g (k + j)) →
      s.out.toNat + (k + bytes.length) ≤ s.lat.dstCap.toNat →
        ∃ u, emitBytes bytes t = .ok () u ∧ Emitted s u (k + bytes.length) q0 g := by
  induction bytes with
  | nil => exact fun h _ _ => ⟨_, rfl, h⟩
  | cons b bytes ih =>
    intro t k h hb hroom
    simp only [List.length_cons] at hroom
    have hstep := h.step hl (by omega) q0
    have hb0 : b = g k := hb 0 (Nat.zero_lt_succ _)
    obtain ⟨u, hu, he⟩ := ih hstep
      (fun j hj => by
        have := hb (j + 1) (by simpa using hj)
        rw [List.getD_cons_succ] at this
        rw [this]; congr 1; omega) (by omega)
    refine ⟨u, ?_, by rw [List.length_cons]; rwa [show k + (bytes.length + 1) = k + 1 + bytes.length by omega]⟩
    have hem := h.emit hq (by omega) q0
    rw [h.setP] at hem hu
    rw [emitBytes, hb0, Act.bind_ok hem]
    exact hu

theorem copyMatch_run {s : State} {dist : Nat} (hq : Quiet s) (hl : LegalRanges s.lat) (hd : 1 ≤ dist)
    (hdo : dist ≤ s.out.toNat) (n : Nat) :
    ∀ {t : State} {k : Nat},
      Emitted s t k s.p.toNat (fun i => outputByte s (s.out.toNat - dist + i % dist)) →
      s.out.toNat + (k + n) ≤ s.lat.dstCap.toNat →
        ∃ u, copyMatch dist n t = .ok () u ∧
          Emitted s u (k + n) s.p.toNat (fun i => outputByte s (s.out.toNat - dist + i % dist)) := by
  induction n with
  | zero => exact fun h _ => ⟨_, rfl, h⟩
  | succ n ih =>
    intro t k h hroom
    have hstep := h.step hl (by omega) s.p.toNat
    have hem := h.emit hq (by omega) s.p.toNat
    obtain ⟨u, hu, he⟩ := ih hstep (by omega)
    refine ⟨u, ?_, by rwa [show k + (n + 1) = k + 1 + n by omega]⟩
    rw [h.setP] at hem hu
    have hbyte : outputByte t (t.out.toNat - dist) = outputByte s (s.out.toNat - dist + k % dist) := by
      rw [h.out]
      by_cases hk : k < dist
      · rw [Nat.mod_eq_of_lt hk, h.earlier hl (by omega) (by omega)]
        congr 1
        omega
      · have := h.bytes (k - dist) (by omega)
        rw [show s.out.toNat + k - dist = s.out.toNat + (k - dist) by omega, this,
          Nat.mod_eq_sub_mod (a := k) (by omega)]
    show ((outByte (t.out.toNat - dist)).bind fun b => (emit b).bind fun _ => copyMatch dist n) t = _
    rw [Act.bind_ok (outByte_ok (h.quiet hq) _), hbyte]
    rw [Act.bind_ok hem]
    exact hu

theorem Emitted.congr {s t : State} {n q : Nat} {g g' : Nat → Byte} (h : Emitted s t n q g)
    (hg : ∀ k < n, g k = g' k) : Emitted s t n q g' where
  frame := h.frame
  out := h.out
  sums := by
    rw [h.sums]
    congr 1
    exact List.map_congr_left fun k hk => hg k (List.mem_range.1 hk)
  bytes := fun k hk => (h.bytes k hk).trans (hg k hk)
  rest := h.rest
  wf := h.wf

/-- The byte a filter row has at index `i`, from the bytes `g` of the row before it and the row above in `s` (R240,
R242). -/
def rowByte (pred : Nat → Nat → Nat → Nat) (s : State) (g : Nat → Byte) (i : Nat) : Byte :=
  let bpp := s.lat.bpp.toNat
  let rb := s.lat.rowBytes.toNat
  reconstruct (inputField s (s.p.toNat + 8 * i) 8)
    (pred (if bpp ≤ i then (g (i - bpp)).toNat else 0)
      (if 1 ≤ s.row then (outputByte s (s.out.toNat - rb + i)).toNat else 0)
      (if 1 ≤ s.row ∧ bpp ≤ i then (outputByte s (s.out.toNat - rb + i - bpp)).toNat else 0))

theorem neighbour_ok {s : State} (hq : Quiet s) (inside : Bool) (k : Nat) :
    neighbour inside k s = .ok (if inside then (outputByte s k).toNat else 0) s := by
  unfold neighbour
  cases inside
  · rfl
  · simp only [if_true]
    rw [Act.bind_ok (outByte_ok hq k)]
    rfl

theorem neighbours_ok {s : State} (hq : Quiet s) (i start : Nat) :
    neighbours i start s = .ok
      (if s.lat.bpp.toNat ≤ i then (outputByte s (start + i - s.lat.bpp.toNat)).toNat else 0,
       if 1 ≤ s.row then (outputByte s (start - s.lat.rowBytes.toNat + i)).toNat else 0,
       if 1 ≤ s.row ∧ s.lat.bpp.toNat ≤ i then
         (outputByte s (start - s.lat.rowBytes.toNat + i - s.lat.bpp.toNat)).toNat else 0) s := by
  show ((neighbour _ _).bind _) s = _
  rw [Act.bind_ok (neighbour_ok hq _ _), Act.bind_ok (neighbour_ok hq _ _), Act.bind_ok (neighbour_ok hq _ _)]
  simp only [Act.pure, Bool.and_eq_true, decide_eq_true_eq]

theorem unfilterBytes_run {s : State} (pred : Nat → Nat → Nat → Nat) (hq : Quiet s) (hl : LegalRanges s.lat)
    (hbpp : 1 ≤ s.lat.bpp.toNat) (hrow : 1 ≤ s.row → s.lat.rowBytes.toNat ≤ s.out.toNat) (n : Nat) :
    ∀ {t : State} {k : Nat} {g : Nat → Byte}, Emitted s t k (s.p.toNat + 8 * k) g →
      (∀ j < k, g j = rowByte pred s g j) → k + n ≤ s.lat.rowBytes.toNat →
      s.p.toNat + 8 * (k + n) ≤ inputBits s → s.out.toNat + (k + n) ≤ s.lat.dstCap.toNat →
        ∃ u g', unfilterBytes pred s.out.toNat k n t = .ok () u ∧
          Emitted s u (k + n) (s.p.toNat + 8 * (k + n)) g' ∧ ∀ j < k + n, g' j = rowByte pred s g' j := by
  induction n with
  | zero => exact fun h hg _ _ _ => ⟨_, _, rfl, h, hg⟩
  | succ n ih =>
    intro t k g h hg hrb hb hroom
    let g1 : Nat → Byte := fun j => if j = k then rowByte pred s g k else g j
    have hlt : ∀ j < k, g1 j = g j := fun j hj => if_neg (by omega)
    have hrec : ∀ j ≤ k, rowByte pred s g1 j = rowByte pred s g j := by
      intro j hj
      unfold rowByte
      simp only
      congr 2
      split
      · rw [hlt _ (by omega)]
      · rfl
    have hk : g1 k = rowByte pred s g k := if_pos rfl
    have h1 : Emitted s t k (s.p.toNat + 8 * k) g1 := h.congr fun j hj => (hlt j hj).symm
    have hstep := h1.step hl (by omega) (s.p.toNat + 8 * (k + 1))
    obtain ⟨u, g', hu, he, hg'⟩ := ih hstep (fun j hj => by
      rw [hrec j (by omega)]
      by_cases hjk : j = k
      · rw [hjk, hk]
      · rw [hlt j (by omega), hg j (by omega)]) (by omega) (by omega) (by omega)
    refine ⟨u, g', ?_, by rwa [show k + (n + 1) = k + 1 + n by omega], fun j hj => hg' j (by omega)⟩
    rw [unfilterBytes, Act.bind_ok (h.readBits hq hl (by omega) (m := 8) (by omega)),
      Act.bind_ok (neighbours_ok (s := t.setP _) (h.quiet hq) _ _)]
    have hlat : (t.setP (s.p.toNat + 8 * k + 8)).lat = s.lat := h.lat
    have hrw : (t.setP (s.p.toNat + 8 * k + 8)).row = s.row := h.row
    have hby : ∀ x, outputByte (t.setP (s.p.toNat + 8 * k + 8)) x = outputByte t x := fun _ => rfl
    have hval : reconstruct (inputField s (s.p.toNat + 8 * k) 8)
        (pred
          (if s.lat.bpp.toNat ≤ k then (outputByte t (s.out.toNat + k - s.lat.bpp.toNat)).toNat else 0)
          (if 1 ≤ s.row then (outputByte t (s.out.toNat - s.lat.rowBytes.toNat + k)).toNat else 0)
          (if 1 ≤ s.row ∧ s.lat.bpp.toNat ≤ k then
            (outputByte t (s.out.toNat - s.lat.rowBytes.toNat + k - s.lat.bpp.toNat)).toNat else 0)) = g1 k := by
      rw [hk, rowByte]
      congr 2
      · split
        · rw [show s.out.toNat + k - s.lat.bpp.toNat = s.out.toNat + (k - s.lat.bpp.toNat) by omega,
            h.bytes _ (by omega)]
        · rfl
      · split
        · rename_i hr
          have := hrow hr
          rw [h.earlier hl (by omega) (by omega)]
        · rfl
      · split
        · rename_i hr
          have := hrow hr.1
          rw [h.earlier hl (by omega) (by omega)]
        · rfl
    simp only [hlat, hrw, hby, hval]
    rw [show s.p.toNat + 8 * k + 8 = s.p.toNat + 8 * (k + 1) by omega, Act.bind_ok (h1.emit hq (by omega) _)]
    exact hu

end Sys2Proof.Machine
end

