-- ==== Sys2Proof/Laws/Huffman.lean ====
section
/-! SUPPORT. Code tables: sizes, the Kraft test, the search for a code, the code-length sequence, and reading the
code-length code. -/

namespace Sys2Proof.Machine

/-! ### Sizes and the Kraft test -/

@[simp] theorem assignCodes_length (lengths : List (BitVec 4)) (next : List Nat) :
    (assignCodes lengths next).length = lengths.length := by
  induction lengths generalizing next with
  | nil => rfl
  | cons l lengths ih =>
    rw [assignCodes]
    split <;> simp [ih]

@[simp] theorem canonical_length (lengths : List (BitVec 4)) : (canonical lengths).length = lengths.length :=
  assignCodes_length _ _

theorem build_sized (lengths : List (BitVec 4)) : (CodeTable.build lengths).sized lengths.length :=
  ⟨rfl, by simp [CodeTable.build]⟩

theorem overSubscribed_iff (lengths : List (BitVec 4)) : overSubscribed lengths = true ↔ 2 ^ 15 < kraft lengths :=
  decide_eq_true_iff

theorem overSubscribed_eq_false (lengths : List (BitVec 4)) :
    overSubscribed lengths = false ↔ kraft lengths ≤ 2 ^ 15 := by
  rw [← Nat.not_lt, ← overSubscribed_iff, Bool.not_eq_true]

/-! ### The search for a code -/

/-- A found symbol lies in the table. -/
theorem findCode_lt {ls : List (BitVec 4)} {ks : List (BitVec 15)} {sym len c r : Nat}
    (h : findCode ls ks sym len c = some r) : sym ≤ r ∧ r < sym + ls.length := by
  induction ls generalizing ks sym with
  | nil => simp [findCode] at h
  | cons l ls ih =>
    cases ks with
    | nil => simp [findCode] at h
    | cons k ks =>
      rw [findCode] at h
      split at h
      · cases h; simp
      · have := ih h
        simp only [List.length_cons]
        omega

theorem symbol_lt {t : CodeTable} {len c sym : Nat} (h : t.symbol len c = some sym) : sym < t.lengths.length := by
  have := findCode_lt h
  omega

/-- The loop of R143 takes the first length at which the bits are a code. -/
theorem matchCode_some {t : CodeTable} {bit : Nat → Nat} {len sym : Nat}
    (h : t.symbol len (codeValue bit len) = some sym)
    (hmin : ∀ k, 1 ≤ k → k < len → t.symbol k (codeValue bit k) = none) (n : Nat) :
    ∀ k fuel, k + n + 1 = len → len ≤ k + fuel → matchCode t bit fuel k (codeValue bit k) = some (sym, len) := by
  induction n with
  | zero =>
    intro k fuel hk hf
    obtain ⟨f, rfl⟩ : ∃ f, fuel = f + 1 := ⟨fuel - 1, by omega⟩
    have hk : len = k + 1 := by omega
    subst hk
    rw [codeValue] at h
    simp only [matchCode, h]
  | succ n ih =>
    intro k fuel hk hf
    obtain ⟨f, rfl⟩ : ∃ f, fuel = f + 1 := ⟨fuel - 1, by omega⟩
    have h' := hmin (k + 1) (by omega) (by omega)
    rw [codeValue] at h'
    simp only [matchCode, h']
    exact ih (k + 1) f (by omega) (by omega)

theorem matchCode_none {t : CodeTable} {bit : Nat → Nat} (fuel : Nat) :
    ∀ k, (∀ j, k < j → j ≤ k + fuel → t.symbol j (codeValue bit j) = none) →
      matchCode t bit fuel k (codeValue bit k) = none := by
  induction fuel with
  | zero => exact fun _ _ => rfl
  | succ f ih =>
    intro k h
    have h' := h (k + 1) (by omega) (by omega)
    rw [codeValue] at h'
    simp only [matchCode, h']
    exact ih (k + 1) fun j hj hj' => h j (by omega) (by omega)

/-- What the loop can answer: a symbol of the table, with a length it tried. -/
theorem matchCode_spec {t : CodeTable} {bit : Nat → Nat} (fuel : Nat) {k c sym len : Nat}
    (h : matchCode t bit fuel k c = some (sym, len)) : sym < t.lengths.length ∧ k < len ∧ len ≤ k + fuel := by
  induction fuel generalizing k c with
  | zero => simp [matchCode] at h
  | succ f ih =>
    rw [matchCode] at h
    split at h
    · rename_i s hs
      cases h
      exact ⟨symbol_lt hs, by omega, by omega⟩
    · have := ih h
      omega

theorem decode_spec {t : CodeTable} {bit : Nat → Nat} {sym len : Nat} (h : t.decode bit = some (sym, len)) :
    sym < t.lengths.length ∧ 1 ≤ len ∧ len ≤ 15 := by
  have := matchCode_spec _ h
  simp only [Config.maxBits] at this
  omega

/-! ### The code-length sequence -/

@[simp] theorem setLens_length (r : Nat) (lens : List (BitVec 4)) (n : Nat) (v : BitVec 4) :
    (setLens lens n r v).length = lens.length := by
  induction r generalizing lens n with
  | zero => rfl
  | succ r ih => rw [setLens, ih, List.length_set]

theorem setLens_getD (r : Nat) : ∀ (lens : List (BitVec 4)) (n : Nat) (v : BitVec 4) (j : Nat), j < lens.length →
    (setLens lens n r v).getD j 0 = if n ≤ j ∧ j < n + r then v else lens.getD j 0 := by
  induction r with
  | zero =>
    intro lens n v j h
    rw [if_neg (by omega)]
    rfl
  | succ r ih =>
    intro lens n v j h
    rw [setLens, ih _ _ _ _ (by rwa [List.length_set])]
    by_cases h1 : n = j
    · subst h1
      rw [if_neg (by omega), if_pos (by omega)]
      simp [List.getD, h]
    · by_cases h2 : n + 1 ≤ j ∧ j < n + 1 + r
      · rw [if_pos h2, if_pos (by omega)]
      · rw [if_neg h2, if_neg (by omega)]
        simp [List.getD, h1]

/-! ### Reading fields -/

@[simp] theorem setP_setP (s : State) (q q' : Nat) : (s.setP q).setP q' = s.setP q' := rfl

/-- `k` fields of `n` bits from bit `q` on. -/
theorem readFields_run {s : State} (hq : Quiet s) (hs : s.lat.srcLen.toNat ≤ Config.srcLenMax) (n k : Nat) :
    ∀ q, q + n * k ≤ inputBits s → readFields n k (s.setP q) =
      .ok ((List.range k).map fun i => inputField s (q + n * i) n) (s.setP (q + n * k)) := by
  have hlt : inputBits s = 8 * s.lat.srcLen.toNat := rfl
  simp only [Config.srcLenMax] at hs
  induction k with
  | zero => exact fun _ _ => rfl
  | succ k ih =>
    intro q h
    have e : n * (k + 1) = n * k + n := Nat.mul_succ n k
    rw [e] at h
    have hp : (s.setP q).p.toNat = q := setP_toNat (by omega)
    have hb : HasBits (s.setP q) n := by
      rw [HasBits, hp]
      show q + n ≤ inputBits s
      omega
    rw [readFields, Act.bind_ok (readBits_ok (s := s.setP q) hq hb), hp, setP_setP,
      Act.bind_ok (ih (q + n) (by omega)), List.range_succ_eq_map]
    simp only [Act.pure, List.map_cons, List.map_map, Nat.mul_zero, Nat.add_zero]
    congr 2
    · rw [peekBits, hp]
      rfl
    · refine List.map_congr_left fun i _ => ?_
      show inputField s _ _ = inputField s _ _
      congr 1
      rw [Nat.succ_eq_add_one, Nat.mul_add]
      omega
    · rw [e, Nat.add_assoc, Nat.add_comm n]

end Sys2Proof.Machine
end

