-- ==== Sys2Proof/Laws/PerInstr.lean ====
section
/-! SUPPORT. The statements made of every instruction of the syntax, one lemma per constructor. -/

namespace Sys2Proof.Laws.RowFit

/-- A well-formed instruction stands for a row of the opcode table: the table has a row of its mnemonic, of its format,
whose fixed fields its encoded value has. -/
def Statement (i : Instr) : Prop :=
  WellFormed i = true →
    ∃ r ∈ opcodeTable, r.mnemonic = i.mnemonic ∧ r.format = (encode i).1 ∧ r.fits (encode i).2 = true

/-- Whether row `k` of the table is of mnemonic `m` and format `f` and has the fixed fields of `v`. -/
def rowIs (k : Nat) (m : String) (f : Format) (v : Nat) : Bool :=
  match opcodeTable[k]? with
  | some r => r.mnemonic == m && r.format == f && r.fits v
  | none => false

theorem of_row {i : Instr} (k : Nat) (h : rowIs k i.mnemonic (encode i).1 (encode i).2 = true) : Statement i := by
  intro _
  unfold rowIs at h
  split at h
  · rename_i r hr
    rw [Bool.and_eq_true, Bool.and_eq_true] at h
    exact ⟨r, List.mem_of_getElem? hr, of_decide_eq_true h.1.1, of_decide_eq_true h.1.2, h.2⟩
  · exact absurd h Bool.false_ne_true

theorem inflate (abort : Bool) (ie : Bool) : Statement (.inflate abort ie) := by
  cases abort <;> cases ie <;> exact of_row 0 (by decide)

theorem unfilter (abort : Bool) (ie : Bool) : Statement (.unfilter abort ie) := by
  cases abort <;> cases ie <;> exact of_row 1 (by decide)

theorem huffBuild (abort : Bool) (ie : Bool) : Statement (.huffBuild abort ie) := by
  cases abort <;> cases ie <;> exact of_row 2 (by decide)

theorem cmdReservedOp0 (abort : Bool) (ie : Bool) : Statement (.cmdReservedOp0 abort ie) := by
  cases abort <;> cases ie <;> exact of_row 3 (by decide)

theorem cmdReservedOp4 (abort : Bool) (ie : Bool) : Statement (.cmdReservedOp4 abort ie) := by
  cases abort <;> cases ie <;> exact of_row 4 (by decide)

theorem cmdReservedOp5 (abort : Bool) (ie : Bool) : Statement (.cmdReservedOp5 abort ie) := by
  cases abort <;> cases ie <;> exact of_row 5 (by decide)

theorem cmdReservedOp6 (abort : Bool) (ie : Bool) : Statement (.cmdReservedOp6 abort ie) := by
  cases abort <;> cases ie <;> exact of_row 6 (by decide)

theorem cmdReservedOp7 (abort : Bool) (ie : Bool) : Statement (.cmdReservedOp7 abort ie) := by
  cases abort <;> cases ie <;> exact of_row 7 (by decide)

theorem cmdReservedOp8 (abort : Bool) (ie : Bool) : Statement (.cmdReservedOp8 abort ie) := by
  cases abort <;> cases ie <;> exact of_row 8 (by decide)

theorem cmdReservedOp9 (abort : Bool) (ie : Bool) : Statement (.cmdReservedOp9 abort ie) := by
  cases abort <;> cases ie <;> exact of_row 9 (by decide)

theorem cmdReservedOp10 (abort : Bool) (ie : Bool) : Statement (.cmdReservedOp10 abort ie) := by
  cases abort <;> cases ie <;> exact of_row 10 (by decide)

theorem cmdReservedOp11 (abort : Bool) (ie : Bool) : Statement (.cmdReservedOp11 abort ie) := by
  cases abort <;> cases ie <;> exact of_row 11 (by decide)

theorem cmdReservedOp12 (abort : Bool) (ie : Bool) : Statement (.cmdReservedOp12 abort ie) := by
  cases abort <;> cases ie <;> exact of_row 12 (by decide)

theorem cmdReservedOp13 (abort : Bool) (ie : Bool) : Statement (.cmdReservedOp13 abort ie) := by
  cases abort <;> cases ie <;> exact of_row 13 (by decide)

theorem cmdReservedOp14 (abort : Bool) (ie : Bool) : Statement (.cmdReservedOp14 abort ie) := by
  cases abort <;> cases ie <;> exact of_row 14 (by decide)

theorem cmdReservedOp15 (abort : Bool) (ie : Bool) : Statement (.cmdReservedOp15 abort ie) := by
  cases abort <;> cases ie <;> exact of_row 15 (by decide)

theorem abort (ie : Bool) (op : BitVec 4) : Statement (.abort ie op) := of_row 16 (by cases ie <;> revert op <;> decide)

theorem statusClear (done : Bool) (err : Bool) : Statement (.statusClear done err) := of_row 17 rfl

theorem zhdr (cmf : Byte) (flg : Byte) : Statement (.zhdr cmf flg) := fun h => by
  refine ⟨_, List.mem_of_getElem? (i := 18) rfl, rfl, rfl, ?_⟩
  simp only [WellFormed, headerOk, headerMethodOk, headerNoDict, Bool.and_eq_true, beq_iff_eq] at h
  have hc := cmf.isLt
  have hf := flg.isLt
  simp only [Row.fits, encode, List.all_cons, List.all_nil, Bool.and_true, Bool.and_eq_true, beq_iff_eq]
  constructor <;> omega

theorem blockStored (final : Bool) : Statement (.blockStored final) := by
  cases final <;> exact of_row 19 (by decide)

theorem blockFixed (final : Bool) : Statement (.blockFixed final) := by
  cases final <;> exact of_row 20 (by decide)

theorem blockDynamic (final : Bool) : Statement (.blockDynamic final) := by
  cases final <;> exact of_row 21 (by decide)

theorem blockReserved (final : Bool) : Statement (.blockReserved final) := by
  cases final <;> exact of_row 22 (by decide)

theorem storedLen (len : BitVec 16) (nlen : BitVec 16) : Statement (.storedLen len nlen) := of_row 23 rfl

theorem dynHdr (hlit : BitVec 5) (hdist : BitVec 5) (hclen : BitVec 4) : Statement (.dynHdr hlit hdist hclen) := of_row 24 rfl

theorem clLen0 : Statement (.clLen0) := of_row 25 (by decide)

theorem clLen1 : Statement (.clLen1) := of_row 26 (by decide)

theorem clLen2 : Statement (.clLen2) := of_row 27 (by decide)

theorem clLen3 : Statement (.clLen3) := of_row 28 (by decide)

theorem clLen4 : Statement (.clLen4) := of_row 29 (by decide)

theorem clLen5 : Statement (.clLen5) := of_row 30 (by decide)

theorem clLen6 : Statement (.clLen6) := of_row 31 (by decide)

theorem clLen7 : Statement (.clLen7) := of_row 32 (by decide)

theorem clLen8 : Statement (.clLen8) := of_row 33 (by decide)

theorem clLen9 : Statement (.clLen9) := of_row 34 (by decide)

theorem clLen10 : Statement (.clLen10) := of_row 35 (by decide)

theorem clLen11 : Statement (.clLen11) := of_row 36 (by decide)

theorem clLen12 : Statement (.clLen12) := of_row 37 (by decide)

theorem clLen13 : Statement (.clLen13) := of_row 38 (by decide)

theorem clLen14 : Statement (.clLen14) := of_row 39 (by decide)

theorem clLen15 : Statement (.clLen15) := of_row 40 (by decide)

theorem clRepPrev : Statement (.clRepPrev) := of_row 41 (by decide)

theorem clRepZeroShort : Statement (.clRepZeroShort) := of_row 42 (by decide)

theorem clRepZeroLong : Statement (.clRepZeroLong) := of_row 43 (by decide)

theorem lit (b : Byte) : Statement (.lit b) := of_row 44 (by revert b; decide)

theorem eob : Statement (.eob) := of_row 45 (by decide)

theorem len257 : Statement (.len257) := of_row 46 (by decide)

theorem len258 : Statement (.len258) := of_row 47 (by decide)

theorem len259 : Statement (.len259) := of_row 48 (by decide)

theorem len260 : Statement (.len260) := of_row 49 (by decide)

theorem len261 : Statement (.len261) := of_row 50 (by decide)

theorem len262 : Statement (.len262) := of_row 51 (by decide)

theorem len263 : Statement (.len263) := of_row 52 (by decide)

theorem len264 : Statement (.len264) := of_row 53 (by decide)

theorem len265 : Statement (.len265) := of_row 54 (by decide)

theorem len266 : Statement (.len266) := of_row 55 (by decide)

theorem len267 : Statement (.len267) := of_row 56 (by decide)

theorem len268 : Statement (.len268) := of_row 57 (by decide)

theorem len269 : Statement (.len269) := of_row 58 (by decide)

theorem len270 : Statement (.len270) := of_row 59 (by decide)

theorem len271 : Statement (.len271) := of_row 60 (by decide)

theorem len272 : Statement (.len272) := of_row 61 (by decide)

theorem len273 : Statement (.len273) := of_row 62 (by decide)

theorem len274 : Statement (.len274) := of_row 63 (by decide)

theorem len275 : Statement (.len275) := of_row 64 (by decide)

theorem len276 : Statement (.len276) := of_row 65 (by decide)

theorem len277 : Statement (.len277) := of_row 66 (by decide)

theorem len278 : Statement (.len278) := of_row 67 (by decide)

theorem len279 : Statement (.len279) := of_row 68 (by decide)

theorem len280 : Statement (.len280) := of_row 69 (by decide)

theorem len281 : Statement (.len281) := of_row 70 (by decide)

theorem len282 : Statement (.len282) := of_row 71 (by decide)

theorem len283 : Statement (.len283) := of_row 72 (by decide)

theorem len284 : Statement (.len284) := of_row 73 (by decide)

theorem len285 : Statement (.len285) := of_row 74 (by decide)

theorem llReserved286 : Statement (.llReserved286) := of_row 75 (by decide)

theorem llReserved287 : Statement (.llReserved287) := of_row 76 (by decide)

theorem dist0 : Statement (.dist0) := of_row 77 (by decide)

theorem dist1 : Statement (.dist1) := of_row 78 (by decide)

theorem dist2 : Statement (.dist2) := of_row 79 (by decide)

theorem dist3 : Statement (.dist3) := of_row 80 (by decide)

theorem dist4 : Statement (.dist4) := of_row 81 (by decide)

theorem dist5 : Statement (.dist5) := of_row 82 (by decide)

theorem dist6 : Statement (.dist6) := of_row 83 (by decide)

theorem dist7 : Statement (.dist7) := of_row 84 (by decide)

theorem dist8 : Statement (.dist8) := of_row 85 (by decide)

theorem dist9 : Statement (.dist9) := of_row 86 (by decide)

theorem dist10 : Statement (.dist10) := of_row 87 (by decide)

theorem dist11 : Statement (.dist11) := of_row 88 (by decide)

theorem dist12 : Statement (.dist12) := of_row 89 (by decide)

theorem dist13 : Statement (.dist13) := of_row 90 (by decide)

theorem dist14 : Statement (.dist14) := of_row 91 (by decide)

theorem dist15 : Statement (.dist15) := of_row 92 (by decide)

theorem dist16 : Statement (.dist16) := of_row 93 (by decide)

theorem dist17 : Statement (.dist17) := of_row 94 (by decide)

theorem dist18 : Statement (.dist18) := of_row 95 (by decide)

theorem dist19 : Statement (.dist19) := of_row 96 (by decide)

theorem dist20 : Statement (.dist20) := of_row 97 (by decide)

theorem dist21 : Statement (.dist21) := of_row 98 (by decide)

theorem dist22 : Statement (.dist22) := of_row 99 (by decide)

theorem dist23 : Statement (.dist23) := of_row 100 (by decide)

theorem dist24 : Statement (.dist24) := of_row 101 (by decide)

theorem dist25 : Statement (.dist25) := of_row 102 (by decide)

theorem dist26 : Statement (.dist26) := of_row 103 (by decide)

theorem dist27 : Statement (.dist27) := of_row 104 (by decide)

theorem dist28 : Statement (.dist28) := of_row 105 (by decide)

theorem dist29 : Statement (.dist29) := of_row 106 (by decide)

theorem distReserved30 : Statement (.distReserved30) := of_row 107 (by decide)

theorem distReserved31 : Statement (.distReserved31) := of_row 108 (by decide)

theorem trailer (a : Word) : Statement (.trailer a) := of_row 109 rfl

theorem filterNone : Statement (.filterNone) := of_row 110 (by decide)

theorem filterSub : Statement (.filterSub) := of_row 111 (by decide)

theorem filterUp : Statement (.filterUp) := of_row 112 (by decide)

theorem filterAverage : Statement (.filterAverage) := of_row 113 (by decide)

theorem filterPaeth : Statement (.filterPaeth) := of_row 114 (by decide)

theorem filterReserved5 : Statement (.filterReserved5) := of_row 115 (by decide)

theorem filterReserved6 : Statement (.filterReserved6) := of_row 116 (by decide)

theorem filterReserved7 : Statement (.filterReserved7) := of_row 117 (by decide)

theorem filterReserved8to15 (low : BitVec 3) : Statement (.filterReserved8to15 low) := of_row 118 (by revert low; decide)

theorem filterReserved16to31 (low : BitVec 4) : Statement (.filterReserved16to31 low) := of_row 119 (by revert low; decide)

theorem filterReserved32to63 (low : BitVec 5) : Statement (.filterReserved32to63 low) := of_row 120 (by revert low; decide)

theorem filterReserved64to127 (low : BitVec 6) : Statement (.filterReserved64to127 low) := of_row 121 (by revert low; decide)

theorem filterReserved128to255 (low : BitVec 7) : Statement (.filterReserved128to255 low) := of_row 122 (by revert low; decide)

theorem hblen (len : BitVec 4) : Statement (.hblen len) := of_row 123 (by revert len; decide)

theorem hblenInvalid16to31 (low : BitVec 4) : Statement (.hblenInvalid16to31 low) := of_row 124 (by revert low; decide)

theorem hblenInvalid32to63 (low : BitVec 5) : Statement (.hblenInvalid32to63 low) := of_row 125 (by revert low; decide)

theorem hblenInvalid64to127 (low : BitVec 6) : Statement (.hblenInvalid64to127 low) := of_row 126 (by revert low; decide)

theorem hblenInvalid128to255 (low : BitVec 7) : Statement (.hblenInvalid128to255 low) := of_row 127 (by revert low; decide)

end Sys2Proof.Laws.RowFit
end

