-- ==== Sys2Proof/Laws/Step.lean ====
section
/-! SUPPORT. The step: what a host action on a register reaches, and the little-endian words of the bus. -/

namespace Sys2Proof.Machine

theorem wordOfBytes_wordBytes (w : Word) : wordOfBytes (wordBytes w) = w := by
  apply BitVec.eq_of_toNat_eq
  have := w.isLt
  simp [wordOfBytes, wordBytes, List.range_succ]
  omega

@[simp] theorem wordBytes_length (w : Word) : (wordBytes w).length = 4 := rfl

theorem regAt_offset (r : Reg) : regAt r.offset = some r := by cases r <;> decide

theorem offset_le (r : Reg) : r.offset ≤ 60 := by cases r <;> decide

/-- An aligned access of four bytes at a register's address reaches it. -/
theorem busTarget_register {pl : Config.Platform} (h : pl.regBase.toNat + 64 ≤ 2 ^ 32) (r : Reg) :
    busTarget pl (pl.regBase + BitVec.ofNat 32 r.offset).toNat 4 = .register r := by
  have ho := offset_le r
  have ha : (pl.regBase + BitVec.ofNat 32 r.offset).toNat = pl.regBase.toNat + r.offset := by
    simp only [BitVec.toNat_add, BitVec.toNat_ofNat]
    omega
  have hm : rangesMeet (pl.regBase.toNat + r.offset) 4 pl.regBase.toNat Config.regBlockSize = true := by
    simp [rangesMeet, Config.regBlockSize]
    omega
  unfold busTarget
  rw [ha, if_pos hm, if_pos ⟨rfl, by omega⟩, Nat.add_sub_cancel_left, regAt_offset]

theorem step_idle {s : State} (h : s.host = []) : step s = engineTick s := by
  simp only [step, h]

theorem step_wait {s : State} {k : Nat} {act : HostAct} {rest : List HostItem} (h : s.host = ⟨k + 1, act⟩ :: rest) :
    step s = engineTick { s with host := ⟨k, act⟩ :: rest } := by
  simp only [step, h]

theorem step_write {s : State} {a : Word} {bytes : List Byte} {rest : List HostItem}
    (h : s.host = ⟨0, .write a bytes⟩ :: rest) : step s = hostWrite a bytes { s with host := rest } := by
  simp only [step, h]

theorem step_read {s : State} {a : Word} {n : Nat} {rest : List HostItem} (h : s.host = ⟨0, .read a n⟩ :: rest) :
    step s = hostRead a n { s with host := rest } := by
  simp only [step, h]

theorem step_reset {s : State} {rest : List HostItem} (h : s.host = ⟨0, .reset⟩ :: rest) :
    step s = hostReset { s with host := rest } := by
  simp only [step, h]

/-! ### The engine's step by what the fetch answers -/

theorem engineStep_raised {s t : State} {f : Format} {e : ErrCode} (hf : s.phase.format = some f)
    (hv : fetchValue f s = .raised e t) : engineStep s = .next (t.complete e) := by
  simp only [engineStep, hf, hv, tokenEnd_raised]

theorem engineStep_ok {s t : State} {f : Format} {v : Nat} {i : Instr} (hf : s.phase.format = some f)
    (hv : fetchValue f s = .ok v t) (hi : decode f v = .ok i) : engineStep s = exec i t := by
  simp only [engineStep, hf, hv, hi]

end Sys2Proof.Machine
end

