-- ==== Sys2Proof/Tests/Slice0.lean ====
section
/-! SUPPORT. The model's own tests: ill-formed instructions refused, words written from the encodings of 30_encoding.md,
single steps on the examples of the rules (each named with its source), and a witness for the hypotheses of every
statement. Every expected value is the spec's, or was worked out by hand from it. -/

namespace Sys2Proof.Tests

open Sys2Proof.Machine

set_option Elab.async false

/-! ### Well-formedness -/

/-- R174: 0x79 has CM = 9. -/
theorem test_illformed_method : WellFormed (.zhdr 0x79 0x9C) = false := by decide

/-- R174: 0x78 0x20 has FDICT = 1, and 0x7820 mod 31 = 0. -/
theorem test_illformed_dict : WellFormed (.zhdr 0x78 0x20) = false := by decide

/-- R174: `78 9D` fails the mod-31 test. -/
theorem test_illformed_check : WellFormed (.zhdr 0x78 0x9D) = false := by decide

/-- R172: LEN = NLEN = 0x7FFF fails, since the sum is 0xFFFE. -/
theorem test_illformed_stored : WellFormed (.storedLen 0x7FFF 0x7FFF) = false := by decide

/-- R104: HLIT field 30 (HLIT 287) is illegal. -/
theorem test_illformed_hlit : WellFormed (.dynHdr 30 0 0) = false := by decide

/-- R174 and R172: `78 9C` and `88 1C` pass, and LEN = 0xFFFF with NLEN = 0 passes; HLIT field 29 passes (R104). -/
theorem test_wellformed : WellFormed (.zhdr 0x78 0x9C) = true ∧ WellFormed (.zhdr 0x88 0x1C) = true ∧
    WellFormed (.storedLen 0xFFFF 0) = true ∧ WellFormed (.dynHdr 29 31 15) = true := by decide

/-! ### Decoding: every constructor, at a word written from R80 to R103 -/

theorem test_decode_cmd_from_0 :
    [0b00010101, 0b00100001, 0b00110011, 0b00000111, 0b01000101, 0b01010001, 0b01100011, 0b01110111,
       0b10000101, 0b10010001, 0b10100011, 0b10110111, 0b11000101, 0b11010001, 0b11100011, 0b11110111].map (decode .cmd) =
      [.ok (.inflate false true), .ok (.unfilter false false), .ok (.huffBuild true false), .ok
       (.cmdReservedOp0 true true), .ok (.cmdReservedOp4 false true), .ok (.cmdReservedOp5 false false),
       .ok (.cmdReservedOp6 true false), .ok (.cmdReservedOp7 true true), .ok (.cmdReservedOp8 false true),
       .ok (.cmdReservedOp9 false false), .ok (.cmdReservedOp10 true false), .ok (.cmdReservedOp11 true
       true), .ok (.cmdReservedOp12 false true), .ok (.cmdReservedOp13 false false), .ok (.cmdReservedOp14
       true false), .ok (.cmdReservedOp15 true true)] := by decide +kernel

theorem test_decode_cmd_from_16 :
    [0b00110110].map (decode .cmd) =
      [.ok (.abort true 3)] := by decide +kernel

theorem test_decode_status :
    [0b00000110].map (decode .status) =
      [.ok (.statusClear true true)] := by decide +kernel

theorem test_decode_zhdr :
    [0b0111100010011100].map (decode .zhdr) =
      [.ok (.zhdr 0x78 0x9C)] := by decide +kernel

theorem test_decode_bhdr :
    [0b001, 0b011, 0b101, 0b111].map (decode .bhdr) =
      [.ok (.blockStored true), .ok (.blockFixed true), .ok (.blockDynamic true), .ok (.blockReserved true)] := by decide +kernel

theorem test_decode_stored :
    [0xFFFD0002].map (decode .stored) =
      [.ok (.storedLen 2 0xFFFD)] := by decide +kernel

theorem test_decode_dynHdr :
    [0b11110000010111].map (decode .dynHdr) =
      [.ok (.dynHdr 23 0 15)] := by decide +kernel

theorem test_decode_clSym_from_0 :
    [0b00000, 0b00001, 0b00010, 0b00011, 0b00100, 0b00101, 0b00110, 0b00111, 0b01000, 0b01001, 0b01010,
       0b01011, 0b01100, 0b01101, 0b01110, 0b01111].map (decode .clSym) =
      [.ok .clLen0, .ok .clLen1, .ok .clLen2, .ok .clLen3, .ok .clLen4, .ok .clLen5, .ok .clLen6, .ok
       .clLen7, .ok .clLen8, .ok .clLen9, .ok .clLen10, .ok .clLen11, .ok .clLen12, .ok .clLen13, .ok
       .clLen14, .ok .clLen15] := by decide +kernel

theorem test_decode_clSym_from_16 :
    [0b10000, 0b10001, 0b10010].map (decode .clSym) =
      [.ok .clRepPrev, .ok .clRepZeroShort, .ok .clRepZeroLong] := by decide +kernel

theorem test_decode_litLen_from_0 :
    [0b001000001, 0b100000000, 0b100000001, 0b100000010, 0b100000011, 0b100000100, 0b100000101,
       0b100000110, 0b100000111, 0b100001000, 0b100001001, 0b100001010, 0b100001011, 0b100001100,
       0b100001101, 0b100001110].map (decode .litLen) =
      [.ok (.lit 0x41), .ok .eob, .ok .len257, .ok .len258, .ok .len259, .ok .len260, .ok .len261, .ok
       .len262, .ok .len263, .ok .len264, .ok .len265, .ok .len266, .ok .len267, .ok .len268, .ok .len269,
       .ok .len270] := by decide +kernel

theorem test_decode_litLen_from_16 :
    [0b100001111, 0b100010000, 0b100010001, 0b100010010, 0b100010011, 0b100010100, 0b100010101,
       0b100010110, 0b100010111, 0b100011000, 0b100011001, 0b100011010, 0b100011011, 0b100011100,
       0b100011101, 0b100011110].map (decode .litLen) =
      [.ok .len271, .ok .len272, .ok .len273, .ok .len274, .ok .len275, .ok .len276, .ok .len277, .ok
       .len278, .ok .len279, .ok .len280, .ok .len281, .ok .len282, .ok .len283, .ok .len284, .ok .len285,
       .ok .llReserved286] := by decide +kernel

theorem test_decode_litLen_from_32 :
    [0b100011111].map (decode .litLen) =
      [.ok .llReserved287] := by decide +kernel

theorem test_decode_dist_from_0 :
    [0b00000, 0b00001, 0b00010, 0b00011, 0b00100, 0b00101, 0b00110, 0b00111, 0b01000, 0b01001, 0b01010,
       0b01011, 0b01100, 0b01101, 0b01110, 0b01111].map (decode .dist) =
      [.ok .dist0, .ok .dist1, .ok .dist2, .ok .dist3, .ok .dist4, .ok .dist5, .ok .dist6, .ok .dist7, .ok
       .dist8, .ok .dist9, .ok .dist10, .ok .dist11, .ok .dist12, .ok .dist13, .ok .dist14, .ok .dist15] := by decide +kernel

theorem test_decode_dist_from_16 :
    [0b10000, 0b10001, 0b10010, 0b10011, 0b10100, 0b10101, 0b10110, 0b10111, 0b11000, 0b11001, 0b11010,
       0b11011, 0b11100, 0b11101, 0b11110, 0b11111].map (decode .dist) =
      [.ok .dist16, .ok .dist17, .ok .dist18, .ok .dist19, .ok .dist20, .ok .dist21, .ok .dist22, .ok
       .dist23, .ok .dist24, .ok .dist25, .ok .dist26, .ok .dist27, .ok .dist28, .ok .dist29, .ok
       .distReserved30, .ok .distReserved31] := by decide +kernel

theorem test_decode_trailer :
    [0x024D0127].map (decode .trailer) =
      [.ok (.trailer 0x024D0127)] := by decide +kernel

theorem test_decode_filterRow :
    [0b00000000, 0b00000001, 0b00000010, 0b00000011, 0b00000100, 0b00000101, 0b00000110, 0b00000111,
       0b00001111, 0b00011111, 0b00111111, 0b01111111, 0b11111111].map (decode .filterRow) =
      [.ok .filterNone, .ok .filterSub, .ok .filterUp, .ok .filterAverage, .ok .filterPaeth, .ok
       .filterReserved5, .ok .filterReserved6, .ok .filterReserved7, .ok (.filterReserved8to15 7), .ok
       (.filterReserved16to31 15), .ok (.filterReserved32to63 31), .ok (.filterReserved64to127 63), .ok
       (.filterReserved128to255 127)] := by decide +kernel

theorem test_decode_codeLen :
    [0b00001111, 0b00011111, 0b00111111, 0b01111111, 0b11111111].map (decode .codeLen) =
      [.ok (.hblen 15), .ok (.hblenInvalid16to31 15), .ok (.hblenInvalid32to63 31), .ok
       (.hblenInvalid64to127 63), .ok (.hblenInvalid128to255 127)] := by decide +kernel

/-- R80, R104: a CTRL write with neither START nor ABORT is no command; a value outside its format is refused. -/
theorem test_decode_refused :
    decode .cmd 0b00010100 = .error .noCommand ∧ decode .clSym 19 = .error .outOfRange ∧
    decode .litLen 288 = .error .outOfRange ∧ decode .dist 32 = .error .outOfRange := by decide

/-- R80: bits 3 and 31:8 of a CTRL write are ignored. -/
theorem test_decode_ignores_reserved : decode .cmd 0xFFFFFF19 = .ok (.inflate false false) := by decide

/-- The table's own numbering: a CTRL word, the block header `0x03` and the end-of-block symbol. -/
theorem test_decodeTableWord :
    decodeTableWord 8 0x11 = some (.inflate false false) ∧ decodeTableWord 16 256 = some .eob := by decide +kernel

/-! ### Steps -/

/-- A running command at a position, with its input bytes at 0x1000 and room for 64 output bytes at 0x2000. -/
def running (op : BitVec 4) (ph : Phase) (input : List Byte) : State :=
  { State.reset with
    busy := true, op := op, phase := ph
    lat := { op := op, srcAddr := 0x1000, srcLen := BitVec.ofNat 32 input.length, dstAddr := 0x2000, dstCap := 64,
             rowBytes := 2, rows := 2, bpp := 1, nsym := 4 }
    mem := memWriteBytes [] 0x1000 input }

/-- A running command that has output bytes already. -/
def withOutput (bytes : List Byte) (s : State) : State :=
  { s with mem := memWriteBytes s.mem 0x2000 bytes, out := BitVec.ofNat 32 bytes.length }

/-- What a test looks at after a step: a function of the next state, or nothing where there is none. -/
def after {α : Type} (o : Host.Outcome State Fault Refusal) (f : State → α) : Option α :=
  match o with
  | .next t => some (f t)
  | .fault _ => none
  | .refused _ => none

/-- The flags, the error code, the bit cursor and the output bytes after a step. -/
def result (o : Host.Outcome State Fault Refusal) : Option (Nat × Nat × Nat × List Byte) :=
  after o fun t => ((statusRead t).toNat, t.err.code.toNat, t.p.toNat, outputSlice t 0 t.out.toNat)

/-- R126: `W CTRL, START|OP=0` gives STATUS = 0b110 and ERRCODE = 11. -/
theorem test_reserved_op : result (exec (.cmdReservedOp0 false false) State.reset) = some (6, 11, 0, []) := by decide +kernel

/-- R34: START sets BUSY, and INFLATE waits for the zlib header. -/
theorem test_start_inflate :
    after (exec (.inflate false true) State.reset) (fun t => (t.busy, t.ie, t.op, t.phase)) =
      some (true, true, 1, .zlibHeader) := by decide +kernel

/-- R122: UNFILTER with BPP = 0 completes with InvalidParameter. -/
theorem test_start_unfilter_bpp : result (exec (.unfilter false false) State.reset) = some (6, 11, 0, []) := by decide +kernel

/-- R127: ABORT while busy sets the request; while idle it is ignored. -/
theorem test_abort :
    after (exec (.abort false 0) (running 1 .blockHeader [])) (fun t => (t.abortReq, t.op)) = some (true, 1) ∧
    after (exec (.abort false 5) State.reset) (fun t => (t.abortReq, t.op)) = some (false, 5) := by decide +kernel

/-- R128: after an error, `W STATUS, 0b110` gives STATUS = 0, and ERRCODE still reads the code. -/
theorem test_status_clear :
    after (exec (.statusClear true true) (State.reset.complete .invalidZlibHeader))
      (fun t => ((statusRead t).toNat, t.err.code.toNat)) = some (0, 2) := by decide +kernel

/-- R174: `78 9C` passes and moves the cursor by 16; `78 9D` raises InvalidZlibHeader (R270: IN_BITPOS = 16). -/
theorem test_zlib_header :
    result (step (running 1 .zlibHeader [0x78, 0x9C])) = some (1, 0, 16, []) ∧
    result (step (running 1 .zlibHeader [0x78, 0x9D])) = some (6, 2, 16, []) := by decide +kernel

/-- R174: SRC_LEN < 2 raises Truncated. -/
theorem test_zlib_header_truncated : result (step (running 1 .zlibHeader [0x78])) = some (6, 1, 8, []) := by decide +kernel

/-- R171: `0x03` is BFINAL 1 with BTYPE 1, and `0x05` is BFINAL 1 with BTYPE 2. -/
theorem test_block_header :
    after (step (running 1 .blockHeader [0x03])) (fun t => (t.bfinal, t.btype, t.nblocks, t.phase)) =
      some (true, 1, 1, .litLenSymbol) ∧
    after (step (running 1 .blockHeader [0x05])) (fun t => (t.bfinal, t.btype, t.nblocks, t.phase)) =
      some (true, 2, 1, .dynHeader) := by decide +kernel

/-- R173: `78 01 07` gives BTYPE 3, InvalidBlockType and IN_BITPOS = 19. -/
theorem test_block_reserved :
    after (step { running 1 .blockHeader [0x78, 0x01, 0x07] with p := 16 })
      (fun t => (t.btype, t.err.code.toNat, t.p.toNat)) = some (3, 3, 19) := by decide +kernel

/-- R172: from p = 19, `02 00 FD FF 41 42` at bytes 3 to 8 give output `41 42` and p = 72. -/
theorem test_stored_block :
    result (step { running 1 .storedHeader [0x78, 0x01, 0x01, 0x02, 0x00, 0xFD, 0xFF, 0x41, 0x42] with p := 19 }) =
      some (1, 0, 72, [0x41, 0x42]) := by decide +kernel

/-- R172: LEN = NLEN = 0x7FFF fails before any data byte is read. -/
theorem test_stored_mismatch :
    result (step (running 1 .storedHeader [0xFF, 0x7F, 0xFF, 0x7F, 0x41])) = some (6, 4, 32, []) := by decide +kernel

/-- R210: the 14 bits `11101 00000 1111` are HLIT 280, HDIST 1 and HCLEN 19, whose 57 bits are missing here (R211). -/
theorem test_dynamic_header :
    decode .dynHdr (0b10111 + 32 * 0b00000 + 1024 * 0b1111) = .ok (.dynHdr 23 0 15) ∧
    result (step (running 1 .dynHeader [0b00010111, 0b00111100])) = some (6, 1, 14, []) := by decide +kernel

/-- R211: `hclen = 4` with the values 0, 0, 1, 1 gives symbol 0 the code `0` and symbol 18 the code `1`. -/
theorem test_code_length_code :
    after (exec (.dynHdr 0 0 0) (running 1 .dynHeader [0b01000000, 0b00000010])) (fun t =>
      (symbolBits t.tcl 0, symbolBits t.tcl 18, t.hlit, t.hdist, t.p.toNat, t.phase)) =
      some ([false], [true], 257, 1, 12, .clSymbol) := by decide +kernel

/-- A dynamic block's code-length sequence at entry `n`. -/
def sequence (n hlit hdist : Nat) (input : List Byte) : State :=
  { running 1 .clSymbol input with clCount := n, hlit := hlit, hdist := hdist }

/-- R213: the symbol 8 sets `lens[n] = 8`. -/
theorem test_direct_length :
    after (exec .clLen8 (sequence 3 257 1 [])) (fun t => (t.lens.take 5, t.clCount)) =
      some ([0, 0, 0, 8, 0], 4) := by decide +kernel

/-- R214: after `lens[0] = 8`, the symbol 16 with extra `0b11` gives `lens[1..6] = 8` and `n = 7`. -/
theorem test_repeat_previous :
    after (exec .clRepPrev { sequence 1 257 1 [0b11] with lens := 8 :: List.replicate 319 0 })
      (fun t => (t.lens.take 8, t.clCount)) = some ([8, 8, 8, 8, 8, 8, 8, 0], 7) := by decide +kernel

/-- R214: symbol 16 first in the sequence raises InvalidDynamicBlock before its extra bits. -/
theorem test_repeat_first : result (exec .clRepPrev (sequence 0 257 1 [0b11])) = some (6, 5, 0, []) := by decide +kernel

/-- R215: extra `0b111` writes 10 zeros. -/
theorem test_zeros_short :
    after (exec .clRepZeroShort { sequence 2 257 1 [0b111] with lens := List.replicate 320 5 })
      (fun t => (t.lens.countP fun l => l == 0, t.clCount)) = some (10, 12) := by decide +kernel

/-- R216: extra 127 writes 138 zeros. -/
theorem test_zeros_long :
    after (exec .clRepZeroLong { sequence 2 257 1 [127] with lens := List.replicate 320 5 })
      (fun t => (t.lens.countP fun l => l == 0, t.clCount)) = some (138, 140) := by decide +kernel

/-- R212, R217: the last length of a set with no end-of-block code raises InvalidDynamicBlock. -/
theorem test_no_end_of_block : result (exec .clLen0 (sequence 257 257 1 [])) = some (6, 5, 0, []) := by decide +kernel

/-- R221: in a fixed block, the code `01110001` gives the literal 0x41. -/
theorem test_literal :
    result (step ({ running 1 .litLenSymbol [0b10001110] with
      tll := CodeTable.build fixedLitLen, td := CodeTable.build fixedDist })) = some (1, 0, 8, [0x41]) := by decide +kernel

/-- R222: in a fixed block, EOB is `0000000`; after a final block the trailer follows (R170). -/
theorem test_end_of_block :
    after (step { running 1 .litLenSymbol [0] with tll := CodeTable.build fixedLitLen, bfinal := true })
      (fun t => (t.p.toNat, t.phase)) = some (7, .trailer) := by decide +kernel

/-- R223: symbol 269 with extra bits `0b10` gives 21. -/
theorem test_length : after (exec .len269 (running 1 .litLenSymbol [0b10])) (·.matchLen) = some 21 := by decide +kernel

/-- R223: 284 with extra 31 gives 258, and 285 gives 258. -/
theorem test_length_258 :
    after (exec .len284 (running 1 .litLenSymbol [31])) (·.matchLen) = some 258 ∧
    after (exec .len285 (running 1 .litLenSymbol [])) (·.matchLen) = some 258 := by decide +kernel

/-- R224: in a fixed block, `11000110` gives 286 and the error, with the cursor after the code. -/
theorem test_reserved_literal :
    result (step { running 1 .litLenSymbol [0b01100011] with tll := CodeTable.build fixedLitLen }) =
      some (6, 6, 8, []) := by decide +kernel

/-- R226: in a fixed block, the distance code `11110` raises the error, with the cursor after the code. -/
theorem test_reserved_distance :
    result (step { running 1 .distSymbol [0b01111] with td := CodeTable.build fixedDist, matchLen := 3 }) =
      some (6, 6, 5, []) := by decide +kernel

/-- R231: with output "ab", `MATCH 5, 2` gives "abababa". -/
theorem test_match :
    result (exec .dist1 (withOutput [0x61, 0x62] { running 1 .distSymbol [] with matchLen := 5 })) =
      some (1, 0, 0, [0x61, 0x62, 0x61, 0x62, 0x61, 0x62, 0x61]) := by decide +kernel

/-- R227: `MATCH 3, 1` as the first token raises DistanceOutOfRange; `dist = out` is legal. -/
theorem test_match_out_of_range :
    result (exec .dist0 { running 1 .distSymbol [] with matchLen := 3 }) = some (6, 7, 0, []) ∧
    result (exec .dist0 (withOutput [0x61] { running 1 .distSymbol [] with matchLen := 3 })) =
      some (1, 0, 0, [0x61, 0x61, 0x61, 0x61]) := by decide +kernel

/-- R91: distance symbol 4 with extra bit 1 is distance 6. -/
theorem test_distance_extra :
    result (exec .dist4 (withOutput [1, 2, 3, 4, 5, 6] { running 1 .distSymbol [1] with matchLen := 3 })) =
      some (1, 0, 1, [1, 2, 3, 4, 5, 6, 1, 2, 3]) := by decide +kernel

/-- R176: for the bytes "abc" the sums are 0x127 and 0x24D. -/
theorem test_adler : adlerRun (1, 0) [0x61, 0x62, 0x63] = (0x127, 0x24D) := by decide +kernel

/-- R178: after "abc", the trailer `02 4D 01 27` passes, and `02 4D 01 26` raises ChecksumMismatch with TRAILER recorded. -/
theorem test_trailer :
    result (step { running 1 .trailer [0x02, 0x4D, 0x01, 0x27] with s1 := 0x127, s2 := 0x24D }) = some (2, 0, 32, []) ∧
    after (step { running 1 .trailer [0x02, 0x4D, 0x01, 0x26] with s1 := 0x127, s2 := 0x24D })
      (fun t => (t.err.code.toNat, t.trailer, adlerRead t)) = some (8, 0x024D0126, 0x024D0127) := by decide +kernel

/-- R244: a row of type None is copied. -/
theorem test_filter_none : result (step (running 2 .rowHeader [0x00, 0x0A, 0x14])) = some (1, 0, 24, [0x0A, 0x14]) := by decide +kernel

/-- R124: `01 05 03` gives `05 08`; R245: `01 FF 02` gives `FF 01`. -/
theorem test_filter_sub :
    result (step (running 2 .rowHeader [0x01, 0x05, 0x03])) = some (1, 0, 24, [0x05, 0x08]) ∧
    result (step (running 2 .rowHeader [0x01, 0xFF, 0x02])) = some (1, 0, 24, [0xFF, 0x01]) := by decide +kernel

/-- The second and last row of UNFILTER, after the row `a b`. -/
def secondRow (a b : Byte) (input : List Byte) : State :=
  withOutput [a, b] { running 2 .rowHeader ([0, a, b] ++ input) with row := 1, p := 24 }

/-- R246: rows `00 0A 14` and `02 01 02` give `0A 14 0B 16`; the last row completes the command. -/
theorem test_filter_up :
    result (step (secondRow 0x0A 0x14 [0x02, 0x01, 0x02])) = some (2, 0, 48, [0x0A, 0x14, 0x0B, 0x16]) := by decide +kernel

/-- R247: rows `00 64 C8` and `03 00 00` give row 1 = `32 7D`. -/
theorem test_filter_average :
    result (step (secondRow 0x64 0xC8 [0x03, 0x00, 0x00])) = some (2, 0, 48, [0x64, 0xC8, 0x32, 0x7D]) := by decide +kernel

/-- R248: rows `00 0A 14` and `04 00 00` give row 1 = `0A 14`. -/
theorem test_filter_paeth :
    result (step (secondRow 0x0A 0x14 [0x04, 0x00, 0x00])) = some (2, 0, 48, [0x0A, 0x14, 0x0A, 0x14]) := by decide +kernel

/-- R248: the ties of the Paeth predictor. -/
theorem test_paeth_ties : paeth 250 250 0 = 250 ∧ paeth 3 7 5 = 5 ∧ paeth 0 0 255 = 0 := by decide

/-- R241: the byte 0x05 at a row start raises InvalidFilterType after the byte. -/
theorem test_filter_reserved : result (step (running 2 .rowHeader [0x05, 0x01, 0x02])) = some (6, 9, 8, []) := by decide +kernel

/-- The last length byte of HUFF_BUILD, after the lengths before it. -/
def lastLength (lens : List (BitVec 4)) (cap : Word) (b : Byte) : State :=
  let s := running 3 .codeLength ((lens.map fun l => l.zeroExtend 8) ++ [b])
  { s with lens := lens ++ List.replicate (320 - lens.length) 0, symIdx := lens.length,
           p := BitVec.ofNat 32 (8 * lens.length),
           lat := { s.lat with nsym := BitVec.ofNat 9 (lens.length + 1), dstCap := cap } }

/-- R125: lengths `02 01 03 03` give the words 0x00020002, 0x00010000, 0x00030006 and 0x00030007. -/
theorem test_huff_build :
    result (step (lastLength [2, 1, 3] 16 0x03)) =
      some (2, 0, 32, [2, 0, 2, 0, 0, 0, 1, 0, 6, 0, 3, 0, 7, 0, 3, 0]) := by decide +kernel

/-- R125: the Kraft sum of `02 03 03 03 03 03 03 03` is above 2^15. -/
theorem test_huff_build_oversubscribed :
    result (step (lastLength [2, 3, 3, 3, 3, 3, 3] 64 0x03)) = some (6, 5, 64, []) := by decide +kernel

/-- R150: a length byte above 15 raises InvalidParameter. -/
theorem test_huff_build_invalid : result (step (lastLength [2, 1, 3] 16 0x10)) = some (6, 11, 32, []) := by decide +kernel

/-- R150: lengths `08 08 07` give the codes 2, 3 and 0. -/
theorem test_canonical : canonical [8, 8, 7] = [2, 3, 0] := by decide +kernel

/-- Assumption 2: a placed table word runs as the first instruction after reset. -/
theorem test_fetch_word :
    after (step (State.reset.withFetchWord 16 256)) (fun t => (t.p.toNat, t.phase)) = some (7, .blockHeader) ∧
    after (step (State.reset.withFetchWord 8 0x11)) (fun t => (t.busy, t.phase)) = some (true, .zlibHeader) := by
  decide +kernel

/-- R61: a two-byte read of the register block has no step. -/
theorem test_register_width :
    (match step { State.reset with host := [⟨0, .read 0x40000000 2⟩] } with
      | .fault f => some f
      | .next _ => none
      | .refused _ => none) = some .registerAccess := by decide +kernel

/-- R27, R43: after reset ADLER reads 1, little-endian on the bus (R60). -/
theorem test_register_read :
    after (step { State.reset with host := [⟨0, .read 0x40000024 4⟩] }) (·.rdata) = some [1, 0, 0, 0] := by decide +kernel

/-! ### Witnesses: states and operands that meet the hypotheses of the statements -/

/-- An idle machine whose parameter registers are legal for every command, at the ends of their ranges: the input ends
at the top of the address space, below it lies the output, and BPP and NSYM are 8 and 288. -/
def legalIdle : State :=
  { State.reset with srcAddr := 0xFFFFFFF0, srcLen := 16, dstAddr := 0xFFFFFF00, dstCap := 0xF0, rowBytes := 1, rows := 1,
                     bpp := 8, nsym := 288 }

theorem witness_StartBeginsCommand : legalIdle.busy = false ∧
    ∀ c ∈ startCommands true false, checkParameters (latchParameters c.2.1 legalIdle) = none ∧
      latchFault legalIdle.plat (latchParameters c.2.1 legalIdle) = none := by decide +kernel

/-- SRC_LEN one above its limit. -/
theorem witness_StartThatCannotRun_parameters :
    ∀ c ∈ startCommands true false,
      checkParameters (latchParameters c.2.1 { legalIdle with srcAddr := 0, srcLen := 0x20000000 }) ≠ none := by
  decide +kernel

/-- An input whose last byte is the first of the register block, and a platform with no memory. -/
theorem witness_StartThatCannotRun_ranges :
    let s : State := { legalIdle with srcAddr := 0x3FFFFFF1 }
    let t : State := { legalIdle with plat := { regBase := 0, ram := [] } }
    ∀ c ∈ startCommands true false,
      checkParameters (latchParameters c.2.1 s) = none ∧
      latchFault s.plat (latchParameters c.2.1 s) = some .registerBlockRange ∧
      checkParameters (latchParameters c.2.1 t) = none ∧
      latchFault t.plat (latchParameters c.2.1 t) = some .unbackedMemory := by decide +kernel

/-- The last input byte lies just below the first output byte. -/
theorem witness_ParameterCheckAcceptsExactlyLegal :
    let s : State := { State.reset with lat := { latchParameters 1 legalIdle with srcAddr := 0xFFFFFEF0 } }
    checkParameters s.lat = none ∧ 15 < s.lat.srcLen.toNat ∧ 0 < s.lat.dstCap.toNat := by decide +kernel

theorem witness_ReservedCommandCompletesAtOnce : State.reset.busy = false := by decide
theorem witness_CommandWhileBusyOnlyStoresIeAndAbort : (running 1 .zlibHeader []).busy = true := by decide
theorem witness_AbortWriteRequestsOnlyWhileBusy :
    (running 1 .zlibHeader []).busy = true ∧ State.reset.busy = false := by decide

theorem witness_ZlibHeaderChecked :
    ((0x78 : Byte).toNat % 16 = 8 ∧ (0x9C : Byte).toNat / 32 % 2 = 0 ∧
      ((0x78 : Byte).toNat * 256 + (0x9C : Byte).toNat) % 31 = 0) ∧
    ¬((0x78 : Byte).toNat % 16 = 8 ∧ (0x20 : Byte).toNat / 32 % 2 = 0 ∧
      ((0x78 : Byte).toNat * 256 + (0x20 : Byte).toNat) % 31 = 0) := by decide

/-- Each range of FixedCodesAreAsListed holds its first and its last symbol. -/
theorem witness_FixedCodesAreAsListed :
    (0 < 144 ∧ 143 < 144) ∧ (144 ≤ 144 ∧ 255 < 256) ∧ (256 ≤ 256 ∧ 279 < 280) ∧ 280 ≤ 280 ∧ 287 < 288 ∧ 31 < 32 := by
  decide

/-- Two stored bytes, which fill the capacity exactly. -/
theorem witness_StoredBlockCopiesItsBytes :
    let s : State := { running 1 .storedHeader [1, 2, 3, 4] with p := 16, out := 62 }
    (2 : BitVec 16).toNat + (0xFFFD : BitVec 16).toNat = 0xFFFF ∧ Quiet s ∧ LegalRanges s.lat ∧ Memory.wf s.mem ∧
      HasBits s (8 * 2) ∧ HasRoom s 2 := by
  unfold Quiet LegalRanges HasBits HasRoom
  decide +kernel

/-- A byte missing after the last one, and a byte past the capacity. -/
theorem witness_StoredBlockErrors :
    let s : State := { running 1 .storedHeader [1, 2, 3, 4] with p := 16 }
    let t : State := { running 1 .storedHeader [1, 2, 3, 4] with p := 8, out := 62 }
    ((0x7FFF : BitVec 16).toNat + (0x7FFF : BitVec 16).toNat ≠ 0xFFFF) ∧
    ((3 : BitVec 16).toNat + (0xFFFC : BitVec 16).toNat = 0xFFFF ∧ 2 < (3 : BitVec 16).toNat) ∧
    (Quiet s ∧ LegalRanges s.lat ∧ Memory.wf s.mem ∧ HasBits s (8 * 2) ∧ HasRoom s 2 ∧ ¬HasBits s (8 * (2 + 1))) ∧
    (Quiet t ∧ LegalRanges t.lat ∧ Memory.wf t.mem ∧ HasBits t (8 * 2) ∧ HasRoom t 2 ∧ HasBits t (8 * (2 + 1)) ∧
      ¬HasRoom t (2 + 1)) := by
  unfold Quiet LegalRanges HasBits HasRoom
  decide +kernel

theorem witness_TrailerChecked :
    (1 : Word).toNat = State.reset.s2.toNat * 65536 + State.reset.s1.toNat ∧
    (0 : Word).toNat ≠ State.reset.s2.toNat * 65536 + State.reset.s1.toNat := by decide

/-- No value, and nineteen values of 7. -/
theorem witness_CodeLengthOrderPlacesValues :
    (([] : List Nat).length ≤ 19 ∧ ∀ v ∈ ([] : List Nat), v < 8) ∧
    ((List.replicate 19 7).length ≤ 19 ∧ ∀ v ∈ List.replicate 19 7, v < 8) ∧ 18 < 19 := by decide

/-- HLIT at its limit with HCLEN 4: the code-length code 0, 0, 1, 1 of R211, and four lengths of 1, which are too many. -/
theorem witness_DynHeaderReadsCodeLengthCode :
    let s := running 1 .dynHeader [0b01000000, 0b00000010]
    let t := running 1 .dynHeader [0b01001001, 0b00000010]
    let cl := fun u : State =>
      codeLengthLengths ((List.range ((0 : BitVec 4).toNat + 4)).map fun i => inputField u (u.p.toNat + 3 * i) 3)
    (29 : BitVec 5).toNat + 257 ≤ 286 ∧ Quiet s ∧ Quiet t ∧ s.lat.srcLen.toNat ≤ Config.srcLenMax ∧
      t.lat.srcLen.toNat ≤ Config.srcLenMax ∧ HasBits s (3 * ((0 : BitVec 4).toNat + 4)) ∧
      HasBits t (3 * ((0 : BitVec 4).toNat + 4)) ∧ kraft (cl s) ≤ 2 ^ 15 ∧ 2 ^ 15 < kraft (cl t) := by
  unfold Quiet HasBits
  decide +kernel

/-- HLIT 287; and an input that ends after two of the values. -/
theorem witness_DynHeaderErrors :
    let s := running 1 .dynHeader [0]
    286 < (30 : BitVec 5).toNat + 257 ∧
    ((29 : BitVec 5).toNat + 257 ≤ 286 ∧ Quiet s ∧ s.lat.srcLen.toNat ≤ Config.srcLenMax ∧
      2 < (0 : BitVec 4).toNat + 4 ∧ HasBits s (3 * 2) ∧ ¬HasBits s (3 * (2 + 1))) := by
  unfold Quiet HasBits
  decide +kernel

/-- Every code-length symbol, at the last entry but enough for its run. -/
theorem witness_CodeLengthRunsFillLengths :
    let s := sequence 1 257 32 [0xFF]
    Quiet s ∧ s.lat.srcLen.toNat ≤ Config.srcLenMax ∧ s.hlit + s.hdist ≤ s.lens.length ∧
    ∀ c ∈ codeLengthRuns, (c.1 = .clRepPrev → 0 < s.clCount) ∧ HasBits s c.2.1 ∧
      s.clCount + (c.2.2.1 + inputField s s.p.toNat c.2.1) < s.hlit + s.hdist := by
  unfold Quiet HasBits
  decide +kernel

/-- No previous length; runs with their extra bits missing; runs that pass the end by one. -/
theorem witness_CodeLengthRunErrors :
    let s := sequence 0 257 1 []
    let t := sequence 256 257 1 [0]
    Quiet s ∧ s.clCount = 0 ∧ Quiet t ∧
    (∀ c ∈ codeLengthRuns, 0 < c.2.1 → ¬HasBits s c.2.1) ∧
    ∀ c ∈ codeLengthRuns, 0 < c.2.1 → (c.1 = .clRepPrev → 0 < t.clCount) ∧ HasBits t c.2.1 ∧
      t.hlit + t.hdist < t.clCount + (c.2.2.1 + inputField t t.p.toNat c.2.1) := by
  unfold Quiet HasBits
  decide +kernel

/-- The last entry of the longest sequence, with and without a code for symbol 256. -/
theorem witness_LastLengthBuildsTrees :
    let s : State := { sequence 317 286 32 [] with lens := List.replicate 256 0 ++ List.replicate 64 1 }
    let t : State := { sequence 317 286 32 [] with lens := List.replicate 256 0 ++ 1 :: List.replicate 63 0 }
    let ll := fun u : State => (u.lens.set 317 0).take 286 ++ List.replicate (288 - 286) 0
    Quiet s ∧ Quiet t ∧ s.lat.srcLen.toNat ≤ Config.srcLenMax ∧ s.hlit + s.hdist ≤ s.lens.length ∧
      t.hlit + t.hdist ≤ t.lens.length ∧ HasBits s 0 ∧ HasBits t 0 ∧
      s.clCount + (1 + inputField s s.p.toNat 0) = s.hlit + s.hdist ∧
      ¬kraft (ll s) ≤ 2 ^ 15 ∧ (ll t).getD 256 0 ≠ 0 ∧ kraft (ll t) ≤ 2 ^ 15 := by
  unfold Quiet HasBits
  decide +kernel

/-- Room for exactly one byte, and for none. -/
theorem witness_LiteralEmitsItsByte :
    let s : State := { running 1 .litLenSymbol [] with out := 63 }
    let t : State := { running 1 .litLenSymbol [] with out := 64 }
    Quiet s ∧ s.out.toNat < s.lat.dstCap.toNat ∧ Memory.wf s.mem ∧ Quiet t ∧ t.lat.dstCap.toNat ≤ t.out.toNat := by
  unfold Quiet
  decide +kernel

theorem witness_EndOfBlockMovesOn :
    { State.reset with bfinal := true }.bfinal = true ∧ State.reset.bfinal = false := by decide

theorem witness_LengthSymbolGivesLength :
    let s := running 1 .litLenSymbol [0]
    let t := running 1 .litLenSymbol []
    Quiet s ∧ Quiet t ∧ (∀ e ∈ lengthTable, HasBits s e.2.2) ∧ ∀ e ∈ lengthTable, 0 < e.2.2 → ¬HasBits t e.2.2 := by
  unfold Quiet HasBits
  decide +kernel

/-- `dist = out`, and a match that fills the capacity exactly. -/
theorem witness_MatchRepeatsItsPeriod :
    let s : State := withOutput [1, 2, 3, 4, 5] { running 1 .distSymbol [0] with matchLen := 59 }
    Quiet s ∧ LegalRanges s.lat ∧ Memory.wf s.mem ∧ (.dist4, 5, 1) ∈ distanceTable ∧ HasBits s 1 ∧
      5 + inputField s s.p.toNat 1 ≤ s.out.toNat ∧ HasRoom s s.matchLen := by
  unfold Quiet LegalRanges HasBits HasRoom
  decide +kernel

/-- Missing extra bits; a distance one beyond the output; a match one byte too long. -/
theorem witness_MatchErrors :
    let s : State := withOutput [1, 2, 3, 4, 5] { running 1 .distSymbol [] with matchLen := 60 }
    let t : State := withOutput [1, 2, 3, 4] { running 1 .distSymbol [0] with matchLen := 60 }
    let u : State := withOutput [1, 2, 3, 4, 5] { running 1 .distSymbol [0] with matchLen := 60 }
    (.dist4, 5, 1) ∈ distanceTable ∧ (Quiet s ∧ ¬HasBits s 1) ∧
    (Quiet t ∧ HasBits t 1 ∧ t.out.toNat < 5 + inputField t t.p.toNat 1) ∧
    (Quiet u ∧ HasBits u 1 ∧ 5 + inputField u u.p.toNat 1 ≤ u.out.toNat ∧ LegalRanges u.lat ∧ Memory.wf u.mem ∧
      u.out.toNat ≤ u.lat.dstCap.toNat ∧ ¬HasRoom u u.matchLen) := by
  unfold Quiet LegalRanges HasBits HasRoom
  decide +kernel

/-- The first row, and the last row with BPP above the row's length. -/
theorem witness_FilterRowReconstructs :
    let s := running 2 .rowHeader [1, 2]
    let t : State := { secondRow 1 2 [4, 5, 6] with p := 32 }
    let u : State := { t with lat := { t.lat with bpp := 8 } }
    (Quiet s ∧ LegalRanges s.lat ∧ Memory.wf s.mem ∧ 1 ≤ s.lat.bpp.toNat ∧ (1 ≤ s.row → s.lat.rowBytes.toNat ≤ s.out.toNat) ∧
      HasBits s (8 * s.lat.rowBytes.toNat) ∧ HasRoom s s.lat.rowBytes.toNat ∧ s.row + 1 < s.lat.rows.toNat) ∧
    (Quiet u ∧ LegalRanges u.lat ∧ Memory.wf u.mem ∧ 1 ≤ u.lat.bpp.toNat ∧ (1 ≤ u.row → u.lat.rowBytes.toNat ≤ u.out.toNat) ∧
      HasBits u (8 * u.lat.rowBytes.toNat) ∧ HasRoom u u.lat.rowBytes.toNat ∧ ¬u.row + 1 < u.lat.rows.toNat) := by
  unfold Quiet LegalRanges HasBits HasRoom
  decide +kernel

/-- A row whose second filtered byte is missing, and a row with room for its first byte alone. -/
theorem witness_FilterRowErrors :
    let s := running 2 .rowHeader [1]
    let t : State := { running 2 .rowHeader [1, 2] with lat := { (running 2 .rowHeader [1, 2]).lat with dstCap := 1 } }
    (Quiet s ∧ LegalRanges s.lat ∧ Memory.wf s.mem ∧ 1 ≤ s.lat.bpp.toNat ∧ (1 ≤ s.row → s.lat.rowBytes.toNat ≤ s.out.toNat) ∧
      1 < s.lat.rowBytes.toNat ∧ HasBits s (8 * 1) ∧ HasRoom s 1 ∧ ¬HasBits s (8 * (1 + 1))) ∧
    (Quiet t ∧ LegalRanges t.lat ∧ Memory.wf t.mem ∧ 1 ≤ t.lat.bpp.toNat ∧ (1 ≤ t.row → t.lat.rowBytes.toNat ≤ t.out.toNat) ∧
      1 < t.lat.rowBytes.toNat ∧ HasBits t (8 * 1) ∧ HasRoom t 1 ∧ HasBits t (8 * (1 + 1)) ∧ ¬HasRoom t (1 + 1)) := by
  unfold Quiet LegalRanges HasBits HasRoom
  decide +kernel

/-- The raw row 5, 8 and its Sub-filtered row 5, 3. -/
theorem witness_FilterRoundTrip :
    let s := running 2 .rowHeader [5, 3]
    let raw : Nat → Byte := fun i => if i = 0 then 5 else 8
    (Quiet s ∧ LegalRanges s.lat ∧ Memory.wf s.mem ∧ 1 ≤ s.lat.bpp.toNat ∧ (1 ≤ s.row → s.lat.rowBytes.toNat ≤ s.out.toNat) ∧
      HasBits s (8 * s.lat.rowBytes.toNat) ∧ HasRoom s s.lat.rowBytes.toNat) ∧
    ∀ i < s.lat.rowBytes.toNat, BitVec.ofNat 8 (inputField s (s.p.toNat + 8 * i) 8) =
      forwardFilter (fun a _ _ => a) s.lat.bpp.toNat (decide (1 ≤ s.row)) raw (fun _ => 0) i := by
  unfold Quiet LegalRanges HasBits HasRoom
  decide +kernel

/-- Each clause of PaethPicksNearest: a is nearest; b is and a is not; c is. -/
theorem witness_PaethPicksNearest :
    let d := fun a b c x : Nat => ((a : Int) + b - c - x).natAbs
    (d 250 250 0 250 ≤ d 250 250 0 250 ∧ d 250 250 0 250 ≤ d 250 250 0 0) ∧
    (¬(d 10 20 10 10 ≤ d 10 20 10 20 ∧ d 10 20 10 10 ≤ d 10 20 10 10) ∧ d 10 20 10 20 ≤ d 10 20 10 10) ∧
    (¬(d 3 7 5 3 ≤ d 3 7 5 7 ∧ d 3 7 5 3 ≤ d 3 7 5 5) ∧ d 3 7 5 5 < d 3 7 5 7) := by decide

theorem witness_LengthByteStored : (running 3 .codeLength []).symIdx + 1 < (running 3 .codeLength []).lat.nsym.toNat := by
  decide

/-- Four symbols, whose words fill the capacity exactly; their set is complete. -/
theorem witness_HuffBuildWritesCodes :
    let s := lastLength [2, 1, 3] 16 3
    s.symIdx + 1 = s.lat.nsym.toNat ∧ Quiet s ∧ LegalRanges s.lat ∧ Memory.wf s.mem ∧ s.lat.nsym.toNat ≤ s.lens.length ∧
      HasRoom s (4 * s.lat.nsym.toNat) ∧ kraft ((s.lens.set s.symIdx 3).take s.lat.nsym.toNat) ≤ 2 ^ 15 := by
  unfold Quiet LegalRanges HasRoom
  decide +kernel

/-- Seven codes of length 3 and one of length 2; and the four symbols with room for all their bytes but one. -/
theorem witness_HuffBuildErrors :
    let s := lastLength [2, 3, 3, 3, 3, 3, 3] 64 3
    let t := lastLength [2, 1, 3] 15 3
    (s.lat.nsym.toNat ≤ s.symIdx + 1 ∧ 2 ^ 15 < kraft ((s.lens.set s.symIdx 3).take s.lat.nsym.toNat)) ∧
    (t.lat.nsym.toNat ≤ t.symIdx + 1 ∧ Quiet t ∧ LegalRanges t.lat ∧ Memory.wf t.mem ∧ t.lat.nsym.toNat ≤ t.lens.length ∧
      t.out.toNat ≤ t.lat.dstCap.toNat ∧ ¬HasRoom t (4 * t.lat.nsym.toNat) ∧
      kraft ((t.lens.set t.symIdx 3).take t.lat.nsym.toNat) ≤ 2 ^ 15) := by
  unfold Quiet LegalRanges HasRoom
  decide +kernel

/-- A complete set whose longest codes have 15 bits. -/
def deepLengths : List (BitVec 4) := [1, 2, 3, 4, 5, 6, 7, 8, 9, 10, 11, 12, 13, 14, 15, 15]

theorem witness_CanonicalCodesArePrefixFree :
    kraft deepLengths ≤ 2 ^ 15 ∧ 15 < deepLengths.length ∧ 0 < (deepLengths.getD 15 0).toNat ∧
      (deepLengths.getD 14 0).toNat ≤ (deepLengths.getD 15 0).toNat := by decide +kernel

/-- The symbols 14 and 0 of that set: the code `111111111111110`, then `0`. -/
theorem witness_HuffmanSequenceRoundTrip :
    let s := running 1 .litLenSymbol [0xFF, 0x3F]
    (∀ x ∈ [14, 0], x < deepLengths.length ∧ 0 < (deepLengths.getD x 0).toNat) ∧ Quiet s ∧
      s.lat.srcLen.toNat ≤ Config.srcLenMax ∧
      InputHas s s.p.toNat ([14, 0].flatMap (symbolBits (CodeTable.build deepLengths))) := by
  unfold Quiet InputHas
  decide +kernel

theorem witness_LookupTableAgrees : kraft deepLengths ≤ 2 ^ 15 ∧ ∀ i : Nat, (fun _ => 1) i ≤ 1 :=
  ⟨by decide +kernel, fun _ => Nat.le_refl 1⟩

/-- R147: a code longer than 9 bits through the secondary table, and a code that reaches past the input. -/
theorem test_table_decode :
    let run := fun s : State =>
      match tableSym (CodeTable.build deepLengths) s with
      | .ok sym t => (sym, t.p.toNat, ErrCode.ok)
      | .raised e t => (0, t.p.toNat, e)
    run (running 1 .litLenSymbol [0xFF, 0x3F]) = (14, 15, .ok) ∧
    run (running 1 .litLenSymbol []) = (0, 0, .truncated) := by decide +kernel

theorem witness_DecodedValueIsEncoded :
    decode .cmd 0xFFFFFFFB = .ok (.cmdReservedOp15 true false) ∧ decode .codeLen 255 = .ok (.hblenInvalid128to255 127) := by
  decide

/-- A stored-block header that begins inside a byte, and the literal 0x41 of a fixed block. -/
theorem witness_AssembledTokenIsFetched :
    let s : State := { running 1 .storedHeader [0xFF, 0x02, 0x00, 0xFD, 0xFF] with p := 3 }
    let t : State := { running 1 .litLenSymbol [0b10001110] with tll := CodeTable.build fixedLitLen }
    (decode .stored 0xFFFD0002 = .ok (.storedLen 2 0xFFFD) ∧ Quiet s ∧ s.lat.srcLen.toNat ≤ Config.srcLenMax ∧
      TokenCoded s .stored 0xFFFD0002 ∧
      InputHas s (tokenStart .stored s.p.toNat) (tokenBits s.tcl s.tll s.td .stored 0xFFFD0002)) ∧
    (decode .litLen 0x41 = .ok (.lit 0x41) ∧ Quiet t ∧ t.lat.srcLen.toNat ≤ Config.srcLenMax ∧
      TokenCoded t .litLen 0x41 ∧
      InputHas t (tokenStart .litLen t.p.toNat) (tokenBits t.tcl t.tll t.td .litLen 0x41)) := by
  refine ⟨⟨by decide, rfl, by decide, trivial, ?_⟩, by decide, rfl, by decide, ⟨fixedLitLen, rfl, ?_⟩, ?_⟩
  · unfold InputHas
    decide +kernel
  · decide +kernel
  · unfold InputHas
    decide +kernel

/-- A block header to fetch, and an input that has none. -/
theorem witness_StepRunsFetchedToken :
    let s := running 1 .blockHeader [0x03]
    let t := running 1 .blockHeader []
    (State.reset.host = [] ∧ State.reset.busy = false) ∧
    (s.busy = true ∧ s.phase.format = some .bhdr ∧ s.host = [] ∧
      fetchValue .bhdr s = .ok 3 { s with p := 3 } ∧ decode .bhdr 3 = .ok (.blockFixed true)) ∧
    (t.busy = true ∧ t.phase.format = some .bhdr ∧ t.host = [] ∧ fetchValue .bhdr t = .raised .truncated t) :=
  ⟨by decide, ⟨rfl, rfl, rfl, rfl, by decide⟩, rfl, rfl, rfl, rfl⟩

/-- A START, a CTRL word with neither START nor ABORT, and a STATUS word, as the host's next writes. -/
theorem witness_StepRunsHostWrite :
    let s : State := { State.reset with host := [⟨0, .write 0x40000000 (wordBytes 0x11)⟩] }
    let t : State := { State.reset with host := [⟨0, .write 0x40000004 (wordBytes 6)⟩] }
    s.plat.regBase.toNat + 64 ≤ 2 ^ 32 ∧ s.host = ⟨0, .write s.plat.regBase (wordBytes 0x11)⟩ :: [] ∧
    decode .cmd (0x11 : Word).toNat = .ok (.inflate false false) ∧
    (0x14 : Word).getLsbD 0 = false ∧ (0x14 : Word).getLsbD 1 = false ∧
    t.host = ⟨0, .write (t.plat.regBase + 4) (wordBytes 6)⟩ :: [] := by decide +kernel

/-- Reading exactly to the end, and one bit past it. -/
theorem witness_ReadBitsIsLsbFirst :
    let s := running 1 .blockHeader [0x03]
    Quiet s ∧ s.lat.srcLen.toNat ≤ Config.srcLenMax ∧ s.p.toNat + 8 ≤ 8 * s.lat.srcLen.toNat ∧
      8 * s.lat.srcLen.toNat < s.p.toNat + 9 := by
  unfold Quiet
  decide +kernel

/-- The last code of length 15 with all its bits, and with one missing; and a table with no code. -/
theorem witness_DecodeSymTakesTheMatchingCode :
    let value := fun (s : State) len => codeValue (fun i => peekBit s (s.p.toNat + i)) len
    let s : State := { running 1 .litLenSymbol [0xFF, 0x7F] with p := 0 }
    let u : State := { running 1 .litLenSymbol [0xFF, 0x3F] with p := 2 }
    (CodeTable.build deepLengths).symbol 15 (value s 15) = some 15 ∧
    (∀ k < 15, 1 ≤ k → (CodeTable.build deepLengths).symbol k (value s k) = none) ∧
    s.p.toNat + 15 ≤ 8 * s.lat.srcLen.toNat ∧
    (CodeTable.build deepLengths).symbol 13 (value u 13) = some 12 ∧
    (∀ k < 16, 1 ≤ k → (CodeTable.empty 288).symbol k (value s k) = none) := by decide +kernel

/-- The code `10` of symbol 1 whose second bit lies past the end of the input. -/
theorem witness_DecodeSymTakesTheMatchingCode_truncated :
    let s : State := { running 1 .litLenSymbol [0xFF] with p := 7 }
    let value := fun len => codeValue (fun i => peekBit s (s.p.toNat + i)) len
    (CodeTable.build deepLengths).symbol 2 (value 2) = some 1 ∧
    (CodeTable.build deepLengths).symbol 1 (value 1) = none ∧ 8 * s.lat.srcLen.toNat < s.p.toNat + 2 := by
  decide +kernel

/-- The running states of the tests meet the invariant: a token of INFLATE, of UNFILTER and of HUFF_BUILD. -/
theorem running_inv (op : BitVec 4) (ph : Phase) (h : (op, ph) ∈ [(1, .zlibHeader), (1, .blockHeader), (2, .rowHeader),
    (3, .codeLength)]) : Inv (running op ph [1, 2, 3, 4, 5, 6]) := by
  simp only [List.mem_cons, List.not_mem_nil, or_false, Prod.mk.injEq] at h
  rcases h with ⟨rfl, rfl⟩ | ⟨rfl, rfl⟩ | ⟨rfl, rfl⟩ | ⟨rfl, rfl⟩ <;>
    exact
      { busyPhase := by decide +kernel, busyFlags := by decide +kernel, errCode := by decide +kernel,
        idleNoAbort := by decide +kernel, resetLow := rfl, parameters := by decide +kernel, position := by decide +kernel,
        cursor := by decide +kernel, output := by decide +kernel, adler := by decide +kernel,
        header := by decide +kernel, tables := by unfold CodeTable.sized; decide +kernel,
        sequence := by first | exact trivial | exact ⟨by decide +kernel, by decide +kernel⟩, memory := by decide +kernel }

/-- A block header that a step takes: the hypotheses of StepKeepsInvariant, EngineWritesOnlyNewOutput,
EngineLeavesHostSide, TokenEndsOrGoesOn, EngineAlwaysSteps and EveryCommandCompletes. -/
theorem witness_whole_machine :
    let s := running 1 .blockHeader [1, 2, 3, 4, 5, 6]
    Inv s ∧ s.busy = true ∧ s.host = [] ∧
      after (engineStep s) (·.phase) = some .storedHeader ∧ after (step s) (·.phase) = some .storedHeader :=
  ⟨running_inv _ _ (by decide), by decide +kernel⟩

/-- An abort request at a block header: the draw is a free value, so that what depends on it is a case, not a fact. A
length byte read under a request, before the first boundary, ends without it. -/
theorem witness_AbortStopsAtDrawnBoundary :
    let s := running 1 .blockHeader [1]
    let t : State := { s with abortReq := true, p := 3 }
    let u : State := { running 3 .codeLength [2, 1, 3, 3] with abortReq := true }
    (Quiet s ∧ s.err ≠ .aborted ∧ after (engineStep s) (·.err) = some .ok) ∧
    (t.phase ≠ .idle ∧ t.p ≠ 0 ∧ t.abortReq = true ∧ t.err ≠ .aborted) ∧
    (Config.abortPoint t.draws = true ∨ Config.abortPoint t.draws = false) ∧
    (Config.abortPoint t.draws = true → after (engineStep t) (·.err) = some .aborted) ∧
    (u.abortReq = true ∧ after (engineStep u) (·.err) = some .ok) := by
  refine ⟨⟨rfl, by decide, by decide +kernel⟩, by decide, ?_, fun h => ?_, rfl, by decide +kernel⟩
  · cases Config.abortPoint _ <;> simp
  · let t : State := { running 1 .blockHeader [1] with abortReq := true, p := 3 }
    have hr : readBits 1 t = .raised .aborted t.drawn :=
      Act.bind_raised (boundary_picked (s := t) rfl (by decide) h)
    have hf : fetchValue .bhdr t = .raised .aborted t.drawn := Act.bind_raised hr
    have he : engineStep t = .next (t.drawn.complete .aborted) := engineStep_raised rfl hf
    exact congrArg (after · (·.err)) he

/-- R285: before the first primitive of a command there is no step boundary, so that an abort requested at once does not
stop the first byte of HUFF_BUILD. -/
theorem test_abort_not_before_first :
    after (engineStep { running 3 .codeLength [2, 1, 3, 3] with abortReq := true })
      (fun t => (t.busy, t.p.toNat, t.abortReq, t.draws)) = some (true, 8, true, 0) := by decide +kernel

theorem witness_ParameterWrites :
    let a : Word := 0x40000000 + BitVec.ofNat 32 Reg.hbNsym.offset
    let s : State := { State.reset with host := [⟨0, .write a (wordBytes 0xFFFFFFFF)⟩] }
    let t : State := { running 1 .zlibHeader [] with host := [⟨0, .write a (wordBytes 0xFFFFFFFF)⟩] }
    s.plat.regBase.toNat + 64 ≤ 2 ^ 32 ∧ a = s.plat.regBase + BitVec.ofNat 32 Reg.hbNsym.offset ∧ s.busy = false ∧
      t.busy = true := by decide +kernel

theorem witness_RegisterReads :
    let a : Word := 0x40000000 + BitVec.ofNat 32 Reg.blkhdr.offset
    let s : State := { State.reset with host := [⟨0, .read a 4⟩] }
    let t : State := { running 1 .zlibHeader [] with host := [⟨0, .read a 4⟩] }
    a = s.plat.regBase + BitVec.ofNat 32 Reg.blkhdr.offset ∧ ¬(s.busy = true ∧ Reg.blkhdr.isResult = true) ∧
      t.busy = true ∧ Reg.blkhdr.isResult = true := by decide +kernel

/-- A host action is no part of the invariant. -/
theorem inv_host {s : State} (h : Inv s) (host : List HostItem) : Inv { s with host := host } :=
  { busyPhase := h.busyPhase, busyFlags := h.busyFlags, errCode := h.errCode, idleNoAbort := h.idleNoAbort, resetLow := h.resetLow,
    parameters := h.parameters, position := h.position, cursor := h.cursor, output := h.output, adler := h.adler,
    header := h.header, tables := h.tables, sequence := h.sequence, memory := h.memory }

/-- R311: a reset while a code-length byte is read, with room for output, changes no byte of memory. -/
theorem test_reset_without_write :
    let s : State := { running 3 .codeLength [2, 1, 3, 3] with host := [⟨0, .reset⟩] }
    after (step s) (fun t => decide (t.mem = s.mem) && !t.busy && decide (t.p = 0)) = some true := by decide +kernel

/-- Reset during a command. -/
theorem witness_ResetPutsEveryRegister :
    let s : State := { running 1 .blockHeader [1, 2, 3, 4, 5, 6] with host := [⟨0, .reset⟩] }
    Inv s ∧ s.host = ⟨0, .reset⟩ :: [] :=
  ⟨inv_host (running_inv _ _ (by decide)) _, rfl⟩

/-- A byte at the last address of the block, a misaligned word, and accesses to a running command's ranges. -/
theorem witness_HostStuckOnForbiddenAccess :
    let s := running 1 .blockHeader [1, 2, 3, 4]
    (rangesMeet 0x4000003F 1 s.plat.regBase.toNat 64 = true ∧ (1 ≠ 4)) ∧
    (rangesMeet 0x3FFFFFFE 4 s.plat.regBase.toNat 64 = true ∧ 0x3FFFFFFE < s.plat.regBase.toNat) ∧
    (rangesMeet 0x40000002 4 s.plat.regBase.toNat 64 = true ∧ (0x40000002 - s.plat.regBase.toNat) % 4 ≠ 0) ∧
    (rangesMeet 0x1003 1 s.plat.regBase.toNat 64 = false ∧ backed s.plat 0x1003 1 = true ∧ s.busy = true ∧
      meetsInput s 0x1003 1 = true) ∧
    (rangesMeet 0x203F 1 s.plat.regBase.toNat 64 = false ∧ backed s.plat 0x203F 1 = true ∧
      meetsDest s 0x203F 1 = true) := by decide +kernel

/-- STATUS and CTRL writes answer next states, and a START begins a command. -/
theorem witness_InterruptLine :
    after (exec (.statusClear true false) State.reset) (·.done) = some false ∧
    after (exec (.abort true 0) State.reset) (·.ie) = some true ∧ legalIdle.busy = false ∧
    after (exec (.inflate false true) legalIdle) (·.busy) = some true := by decide +kernel

end Sys2Proof.Tests
end

section
/-! The state family, first part: the shapes that `exec` gives the host's commands and the engine's tokens, each said
once. The host's commands, the engine's frame and the invariant are proved from them. -/

namespace Sys2Proof.Machine

/-! ### The host's commands -/

/-- The sixteen OPs, in order (R100). -/
theorem commandOf_map_exec (abort ie : Bool) :
    (commandOf abort ie).map exec = (List.range 16).map fun op => ctrlWrite true abort ie (BitVec.ofNat 4 op) := rfl

theorem exec_startCommand {abort ie : Bool} {c : Instr × BitVec 4 × Phase} (hc : c ∈ startCommands abort ie) :
    exec c.1 = ctrlWrite true abort ie c.2.1 ∧ c.2.2 = firstPhase c.2.1 := by
  simp only [startCommands, List.mem_cons, List.not_mem_nil, or_false] at hc
  rcases hc with rfl | rfl | rfl <;> exact ⟨rfl, rfl⟩

theorem exec_reservedCommand {abort ie : Bool} {c : Instr × BitVec 4} (hc : c ∈ reservedCommands abort ie) :
    exec c.1 = ctrlWrite true abort ie c.2 := by
  have h : (reservedCommands abort ie).map (fun c => exec c.1) =
      (reservedCommands abort ie).map fun c => ctrlWrite true abort ie c.2 := rfl
  exact List.map_inj_left.1 h c hc

theorem ctrlWrite_busy {s : State} (h : s.busy = true) (start abort ie : Bool) (op : BitVec 4) :
    ctrlWrite start abort ie op s = .next { s with ie := ie, abortReq := s.abortReq || abort } := by
  simp only [ctrlWrite, h, if_true]

theorem ctrlWrite_start {s : State} (h : s.busy = false) (abort ie : Bool) (op : BitVec 4) :
    ctrlWrite true abort ie op s = startCommand op ie s := by
  simp only [ctrlWrite, h, Bool.false_eq_true, if_false, if_true]

theorem ctrlWrite_store {s : State} (h : s.busy = false) (abort ie : Bool) (op : BitVec 4) :
    ctrlWrite false abort ie op s = .next { s with op := op, ie := ie } := by
  simp only [ctrlWrite, h, Bool.false_eq_true, if_false]

theorem startCommand_admitted {s : State} {op : BitVec 4} (hp : checkParameters (latchParameters op s) = none)
    (hl : latchFault s.plat (latchParameters op s) = none) (ie : Bool) :
    startCommand op ie s = .next ((s.started op ie).entered (firstPhase op)) := by
  simp only [startCommand, started_lat, started_plat, hp, hl]

/-- What a START while idle can answer as a next state. -/
theorem startCommand_next {s t : State} {op : BitVec 4} {ie : Bool} (h : startCommand op ie s = .next t) :
    t = (s.started op ie).complete .invalidParameter ∨
      (checkParameters (latchParameters op s) = none ∧ t = (s.started op ie).entered (firstPhase op)) := by
  simp only [startCommand, started_lat, started_plat] at h
  split at h
  · cases h
    exact .inl rfl
  · split at h
    · cases h
    · cases h
      exact .inr ⟨‹_›, rfl⟩

theorem ctrlWrite_not_refused (start abort ie : Bool) (op : BitVec 4) (s : State) (r : Refusal) :
    ctrlWrite start abort ie op s ≠ .refused r := by
  cases hb : s.busy with
  | true => simp [ctrlWrite_busy hb]
  | false =>
    cases start with
    | false => simp [ctrlWrite_store hb]
    | true =>
      rw [ctrlWrite_start hb, startCommand]
      split
      · simp
      · split <;> simp

/-- A CTRL word that decodes to an instruction is a CTRL write that starts a command or requests an abort (R28, R80). -/
theorem exec_decode_cmd {v : Nat} {i : Instr} (h : decode .cmd v = .ok i) :
    ∃ start abort ie op, exec i = ctrlWrite start abort ie op := by
  unfold decode at h
  split at h
  · cases h
  simp only [decodeCmd, symbolAt] at h
  split at h
  · split at h
    · rename_i hi
      cases h
      have hm := List.mem_map_of_mem (f := exec) (List.mem_of_getElem? hi)
      rw [commandOf_map_exec] at hm
      obtain ⟨op, -, hop⟩ := List.mem_map.1 hm
      exact ⟨_, _, _, _, hop.symm⟩
    · cases h
  · split at h
    · cases h
      exact ⟨_, _, _, _, rfl⟩
    · cases h

theorem decode_status (w : Word) :
    decode .status w.toNat = .ok (.statusClear (bitAt w.toNat 1) (bitAt w.toNat 2)) :=
  if_neg (Nat.not_le.2 w.isLt)

theorem bitAt_toNat (w : Word) (k : Nat) : bitAt w.toNat k = w.getLsbD k := by
  rw [BitVec.getLsbD, Nat.testBit_eq_decide_div_mod_eq]
  rfl

theorem decode_cmd_store {w : Word} (h0 : w.getLsbD 0 = false) (h1 : w.getLsbD 1 = false) :
    decode .cmd w.toNat = .error .noCommand := by
  have hd : decode .cmd w.toNat = decodeCmd w.toNat := if_neg (Nat.not_le.2 w.isLt)
  simp only [hd, decodeCmd, bitAt_toNat, h0, h1, Bool.false_eq_true, if_false]

/-! ### The registers CTRL and STATUS on the bus -/

theorem hostWrite_register {s : State} (h : s.plat.regBase.toNat + 64 ≤ 2 ^ 32) (r : Reg) (w : Word) :
    hostWrite (s.plat.regBase + BitVec.ofNat 32 r.offset) (wordBytes w) s = regWrite r w s := by
  simp only [hostWrite, wordBytes_length, busTarget_register h, wordOfBytes_wordBytes]

/-- A step whose host action writes a register. -/
theorem step_write_register {s : State} {rest : List HostItem} {r : Reg} {w : Word} {a : Word}
    (h : s.plat.regBase.toNat + 64 ≤ 2 ^ 32) (ha : a = s.plat.regBase + BitVec.ofNat 32 r.offset)
    (hs : s.host = ⟨0, .write a (wordBytes w)⟩ :: rest) : step s = regWrite r w { s with host := rest } := by
  rw [step_write hs, ha]
  exact hostWrite_register (s := { s with host := rest }) h r w

theorem regWrite_ctrl {s : State} {w : Word} {i : Instr} (h : decode .cmd w.toNat = .ok i) :
    regWrite .ctrl w s = exec i s := by
  simp only [regWrite, h]

theorem regWrite_ctrl_store {s : State} {w : Word} (h0 : w.getLsbD 0 = false) (h1 : w.getLsbD 1 = false) :
    regWrite .ctrl w s = ctrlWrite false false (w.getLsbD 2) (w.extractLsb' 4 4) s := by
  have hop : BitVec.ofNat 4 (w.toNat / 16) = w.extractLsb' 4 4 := by
    rw [BitVec.extractLsb', Nat.shiftRight_eq_div_pow]
  simp only [regWrite, decode_cmd_store h0 h1, ctrlStore, bitAt_toNat, hop]

theorem regWrite_status (s : State) (w : Word) :
    regWrite .status w s = exec (.statusClear (w.getLsbD 1) (w.getLsbD 2)) s := by
  simp only [regWrite, decode_status, bitAt_toNat]

/-! ### The tokens -/

/-- The bodies of the tokens, by the position in the sequence that calls for them: after its fetch, every token of a
command is one of these pieces of pseudocode (`exec_token`). -/
inductive TokenBody : Phase → Act Unit → Prop
  /-- A value its rule gives an error for (R173, R210, R224, R226, R249, R150). -/
  | refuse (ph : Phase) (e : ErrCode) : TokenBody ph (raiseErr e)
  | zlibHeader : TokenBody .zlibHeader (engineSet (State.setPhase .blockHeader))
  | blockStored (final : Bool) :
      TokenBody .blockHeader (engineSet fun s => (s.latchHeader final 0).setPhase .storedHeader)
  | blockFixed (final : Bool) :
      TokenBody .blockHeader (engineSet fun s => ((s.latchHeader final 1).fixedTrees).setPhase .litLenSymbol)
  | blockDynamic (final : Bool) :
      TokenBody .blockHeader (engineSet fun s => (s.latchHeader final 2).setPhase .dynHeader)
  | blockReserved (final : Bool) : TokenBody .blockHeader
      ((engineSet (State.latchHeader final 3)).bind fun _ => raiseErr .invalidBlockType)
  | storedBlock (n : Nat) : TokenBody .storedHeader ((copyStored n).bind fun _ => engineSet State.blockEnd)
  | dynHeader (hlit hdist : BitVec 5) (n : Nat) (h : hlitOk hlit = true) : TokenBody .dynHeader
      ((readCodeLengthCode n).bind fun _ => engineSet fun s =>
        { s with hlit := hlit.toNat + 257, hdist := hdist.toNat + 1, clCount := 0, phase := .clSymbol })
  | clDirect (c : BitVec 4) : TokenBody .clSymbol (clDirect c)
  | clRepPrev : TokenBody .clSymbol
      ((readBits 2).bind fun x s => clRun (3 + x) (s.lens.getD (s.clCount - 1) 0) s)
  | clRepZero (n k : Nat) : TokenBody .clSymbol ((readBits n).bind fun x => clRun (k + x) 0)
  | literal (b : Byte) : TokenBody .litLenSymbol (emit b)
  | endOfBlock : TokenBody .litLenSymbol (engineSet State.blockEnd)
  | length (k : Nat) (h : k < 29) : TokenBody .litLenSymbol (lengthSymbol k)
  | distance (d : Nat) : TokenBody .distSymbol (distSymbol d)
  | trailer (a : Word) : TokenBody .trailer
      ((engineSet fun s => { s with trailer := a }).bind fun _ s =>
        if a = adlerRead s then .ok () (State.complete .ok s) else .raised .checksumMismatch s)
  | filterRow (pred : Nat → Nat → Nat → Nat) : TokenBody .rowHeader (unfilterRow pred)
  | codeLength (len : BitVec 4) : TokenBody .codeLength fun s =>
      if s.symIdx + 1 < s.lat.nsym.toNat then .ok () (s.pushLength len) else buildCode (s.pushLength len)

/-- After the fetch, instruction `i` at position `ph` does what a token's body does. -/
def RunsBody (ph : Phase) (i : Instr) (s : State) : Prop := ∃ m, TokenBody ph m ∧ exec i s = tokenEnd (m s)

/-- The same for a meaning in place of an instruction, for the alphabets whose meanings are listed. -/
theorem RunsBody.of_meaning {ph : Phase} {i : Instr} {m : Act Unit} {s : State} (hm : TokenBody ph m)
    (h : exec i = fun s => tokenEnd (m s)) : RunsBody ph i s := ⟨m, hm, congrFun h s⟩

theorem RunsBody.ite {ph : Phase} {i j : Instr} {s : State} {c : Prop} [Decidable c] (hi : RunsBody ph i s)
    (hj : RunsBody ph j s) : RunsBody ph (if c then i else j) s := by
  split
  · exact hi
  · exact hj

/-- The code-length symbols, in order (R213 to R216). -/
theorem clSymbols_map_exec : clSymbols.map exec =
    ((List.range 16).map fun c s => tokenEnd (clDirect (BitVec.ofNat 4 c) s)) ++
      [execClRepPrev, execClRepZeroShort, execClRepZeroLong] := rfl

/-- The length symbols and the two reserved ones, in order (R223, R224). -/
theorem lengthSymbols_map_exec : lengthSymbols.map exec =
    ((List.range 29).map fun k s => tokenEnd (lengthSymbol k s)) ++
      List.replicate 2 fun s => tokenEnd (.raised .invalidHuffmanSymbol s) := rfl

/-- The distance symbols and the two reserved ones, in order (R225 to R227). -/
theorem distanceSymbols_map_exec : distanceSymbols.map exec =
    ((List.range 30).map fun d s => tokenEnd (distSymbol d s)) ++
      List.replicate 2 fun s => tokenEnd (.raised .invalidHuffmanSymbol s) := rfl

theorem mem_of_symbolAt {l : List Instr} {k : Nat} {i : Instr} (h : symbolAt l k = .ok i) : i ∈ l := by
  unfold symbolAt at h
  split at h
  · cases h
    exact List.mem_of_getElem? ‹_›
  · cases h

theorem symbolAt_of_lt {l : List Instr} {k : Nat} (h : k < l.length) : ∃ i, symbolAt l k = .ok i :=
  ⟨l[k], by rw [symbolAt, List.getElem?_eq_getElem h]⟩

theorem execClRepPrev_body (s : State) : ∃ m, TokenBody .clSymbol m ∧ execClRepPrev s = tokenEnd (m s) := by
  by_cases h : s.clCount = 0
  · exact ⟨_, .refuse _ .invalidDynamicBlock, by rw [execClRepPrev, if_pos h]; rfl⟩
  · exact ⟨_, .clRepPrev, by rw [execClRepPrev, if_neg h]⟩

theorem clSymbol_runsBody {i : Instr} (h : i ∈ clSymbols) (s : State) : RunsBody .clSymbol i s := by
  have hm := List.mem_map_of_mem (f := exec) h
  rw [clSymbols_map_exec] at hm
  simp only [List.mem_append, List.mem_map, List.mem_cons, List.not_mem_nil, or_false] at hm
  rcases hm with ⟨c, -, hc⟩ | he | he | he
  · exact .of_meaning (.clDirect _) hc.symm
  · obtain ⟨m, hm, hs⟩ := execClRepPrev_body s
    exact ⟨m, hm, (congrFun he s).trans hs⟩
  · exact .of_meaning (.clRepZero 3 3) he
  · exact .of_meaning (.clRepZero 7 11) he

theorem lengthSymbol_runsBody {i : Instr} (h : i ∈ lengthSymbols) (s : State) : RunsBody .litLenSymbol i s := by
  have hm := List.mem_map_of_mem (f := exec) h
  rw [lengthSymbols_map_exec] at hm
  simp only [List.mem_append, List.mem_map, List.mem_range, List.mem_replicate] at hm
  rcases hm with ⟨k, hk, he⟩ | ⟨-, he⟩
  · exact .of_meaning (.length k hk) he.symm
  · exact .of_meaning (.refuse _ .invalidHuffmanSymbol) he

theorem distanceSymbol_runsBody {i : Instr} (h : i ∈ distanceSymbols) (s : State) : RunsBody .distSymbol i s := by
  have hm := List.mem_map_of_mem (f := exec) h
  rw [distanceSymbols_map_exec] at hm
  simp only [List.mem_append, List.mem_map, List.mem_replicate] at hm
  rcases hm with ⟨d, -, he⟩ | ⟨-, he⟩
  · exact .of_meaning (.distance d) he.symm
  · exact .of_meaning (.refuse _ .invalidHuffmanSymbol) he

theorem zhdr_runsBody (cmf flg : Byte) (s : State) : RunsBody .zlibHeader (.zhdr cmf flg) s := by
  cases h : headerOk cmf flg with
  | true => exact ⟨_, .zlibHeader, by simp only [exec, execZhdr, h, if_true]; rfl⟩
  | false => exact ⟨_, .refuse _ .invalidZlibHeader, by simp [exec, execZhdr, h, raiseErr]⟩

theorem block_runsBody (v : Nat) (s : State) : RunsBody .blockHeader (decodeBlock v) s := by
  unfold decodeBlock
  split
  · exact ⟨_, .blockStored _, rfl⟩
  · exact ⟨_, .blockFixed _, rfl⟩
  · exact ⟨_, .blockDynamic _, rfl⟩
  · exact ⟨_, .blockReserved _, rfl⟩

theorem storedLen_runsBody (len nlen : BitVec 16) (s : State) : RunsBody .storedHeader (.storedLen len nlen) s := by
  cases h : storedOk len nlen with
  | true => exact ⟨_, .storedBlock len.toNat, by simp only [exec, execStoredLen, h, if_true]⟩
  | false => exact ⟨_, .refuse _ .invalidStoredBlock, by simp [exec, execStoredLen, h, raiseErr]⟩

theorem dynHdr_runsBody (hlit hdist : BitVec 5) (hclen : BitVec 4) (s : State) :
    RunsBody .dynHeader (.dynHdr hlit hdist hclen) s := by
  cases h : hlitOk hlit with
  | true => exact ⟨_, .dynHeader hlit hdist (hclen.toNat + 4) h, by simp only [exec, execDynHdr, h, if_true]⟩
  | false => exact ⟨_, .refuse _ .invalidDynamicBlock, by simp [exec, execDynHdr, h, raiseErr]⟩

theorem litLen_runsBody {v : Nat} {i : Instr} (h : decodeLitLen v = .ok i) (s : State) : RunsBody .litLenSymbol i s := by
  unfold decodeLitLen at h
  split at h
  · cases h
    exact ⟨_, .literal _, rfl⟩
  · split at h
    · cases h
      exact ⟨_, .endOfBlock, rfl⟩
    · exact lengthSymbol_runsBody (mem_of_symbolAt h) s

theorem filter_runsBody (v : Nat) (s : State) : RunsBody .rowHeader (decodeFilter v) s := by
  unfold decodeFilter
  iterate 5 refine .ite ⟨_, .filterRow _, rfl⟩ ?_
  iterate 7 refine .ite ⟨_, .refuse _ .invalidFilterType, rfl⟩ ?_
  exact ⟨_, .refuse _ .invalidFilterType, rfl⟩

theorem codeLen_runsBody (v : Nat) (s : State) : RunsBody .codeLength (decodeCodeLen v) s := by
  unfold decodeCodeLen
  refine .ite ⟨_, .codeLength _, rfl⟩ ?_
  iterate 3 refine .ite ⟨_, .refuse _ .invalidParameter, rfl⟩ ?_
  exact ⟨_, .refuse _ .invalidParameter, rfl⟩

/-- Every instruction that the fetch at a position can give runs one of that position's bodies (R105). -/
theorem exec_token {ph : Phase} {f : Format} {v : Nat} {i : Instr} (hf : ph.format = some f) (hd : decode f v = .ok i)
    (s : State) : RunsBody ph i s := by
  unfold decode at hd
  by_cases hb : 2 ^ f.bits ≤ v
  · rw [if_pos hb] at hd
    cases hd
  rw [if_neg hb] at hd
  cases ph with
  | idle => cases hf
  | zlibHeader => cases hf; cases hd; exact zhdr_runsBody _ _ s
  | blockHeader => cases hf; cases hd; exact block_runsBody v s
  | storedHeader => cases hf; cases hd; exact storedLen_runsBody _ _ s
  | dynHeader => cases hf; cases hd; exact dynHdr_runsBody _ _ _ s
  | clSymbol => cases hf; exact clSymbol_runsBody (mem_of_symbolAt hd) s
  | litLenSymbol => cases hf; exact litLen_runsBody hd s
  | distSymbol => cases hf; exact distanceSymbol_runsBody (mem_of_symbolAt hd) s
  | trailer => cases hf; cases hd; exact ⟨_, .trailer _, rfl⟩
  | rowHeader => cases hf; cases hd; exact filter_runsBody v s
  | codeLength => cases hf; cases hd; exact codeLen_runsBody v s

/-- What an engine step that answers a next state did: its fetch raised, or it ran a token's body. -/
theorem engineStep_next {s t : State} (h : engineStep s = .next t) :
    ∃ f, s.phase.format = some f ∧
      ((∃ e u, fetchValue f s = .raised e u ∧ t = u.complete e) ∨
        ∃ v u m, fetchValue f s = .ok v u ∧ TokenBody s.phase m ∧ .next t = tokenEnd (m u)) := by
  cases hf : s.phase.format with
  | none => simp [engineStep, hf] at h
  | some f =>
    refine ⟨f, rfl, ?_⟩
    cases hv : fetchValue f s with
    | raised e u =>
      rw [engineStep_raised hf hv] at h
      cases h
      exact .inl ⟨e, u, rfl, rfl⟩
    | ok v u =>
      cases hd : decode f v with
      | error e => simp [engineStep, hf, hv, hd] at h
      | ok i =>
        rw [engineStep_ok hf hv hd] at h
        obtain ⟨m, hm, he⟩ := exec_token hf hd u
        exact .inr ⟨v, u, m, rfl, hm, h ▸ he⟩

end Sys2Proof.Machine
end

section
/-! The state family, second part: what the host's commands do (O1, O5, O44), and the frame of an engine step (O52). -/

namespace Sys2Proof.Machine

/-! ### The host's side -/

theorem SameHostSide.trans {a b c : State} (h : SameHostSide a b) (h' : SameHostSide b c) : SameHostSide a c := by
  simp_all only [SameHostSide, and_self]

theorem SameHostSide.lat {s t : State} (h : SameHostSide s t) : t.lat = s.lat := by
  simp only [h.2]

theorem SameHostSide.resetIn {s t : State} (h : SameHostSide s t) : t.resetIn = s.resetIn := by
  simp only [h.2]

theorem OnlyStream.hostSide {s t : State} (h : OnlyStream s t) : SameHostSide s t := by
  rw [h]
  simp [SameHostSide]

theorem hostSide_bind {α β : Type} {m : Act α} {f : α → Act β} (hm : m.Within SameHostSide)
    (hf : ∀ a, (f a).Within SameHostSide) : (m.bind f).Within SameHostSide :=
  Within.bind (R := SameHostSide) (fun h h' => h.trans h') hm hf

theorem stream_hostSide {α : Type} {m : Act α} (hm : m.Within OnlyStream) : m.Within SameHostSide :=
  Within.mono (R := OnlyStream) (fun h => h.hostSide) hm

theorem cursor_hostSide {α : Type} {m : Act α} (hm : m.Within OnlyCursor) : m.Within SameHostSide :=
  stream_hostSide (cursor_stream hm)

theorem raiseErr_within {α : Type} (e : ErrCode) : (raiseErr e : Act α).Within OnlyCursor := fun _ => rfl

theorem engineSet_hostSide {f : State → State} (h : ∀ s, SameHostSide s (f s)) : (engineSet f).Within SameHostSide := h

theorem complete_hostSide (s : State) (e : ErrCode) : SameHostSide s (s.complete e) := by simp [SameHostSide]

theorem setPhase_hostSide (s : State) (ph : Phase) : SameHostSide s (s.setPhase ph) := by simp [SameHostSide]

theorem rowEnd_hostSide (s : State) : SameHostSide s s.rowEnd := by
  unfold State.rowEnd
  split <;> simp [SameHostSide]

theorem readCodeLengthCode_hostSide (n : Nat) : (readCodeLengthCode n).Within SameHostSide := by
  refine hostSide_bind (cursor_hostSide (readFields_within 3 n)) fun values s => ?_
  split <;> simp [SameHostSide]

theorem clNext_hostSide : clNext.Within SameHostSide := by
  intro s
  unfold clNext buildDynamicTrees
  split
  · simp [SameHostSide]
  · split
    · simp [SameHostSide]
    · split
      · simp [SameHostSide]
      · split <;> simp [SameHostSide]

theorem appendLens_hostSide (r : Nat) (v : BitVec 4) : (engineSet (State.appendLens r v)).Within SameHostSide :=
  engineSet_hostSide fun _ => by simp [SameHostSide]

theorem clRun_hostSide (r : Nat) (v : BitVec 4) : (clRun r v).Within SameHostSide := by
  intro s
  unfold clRun
  split
  · simp [SameHostSide]
  · exact hostSide_bind (appendLens_hostSide r v) (fun _ => clNext_hostSide) s

theorem distSymbol_hostSide (d : Nat) : (distSymbol d).Within SameHostSide := by
  refine hostSide_bind (cursor_hostSide (readBits_within _)) fun x s => ?_
  split
  · simp [SameHostSide]
  · exact hostSide_bind (stream_hostSide (copyMatch_within _ _))
      (fun _ => engineSet_hostSide fun s => setPhase_hostSide s _) s

theorem buildCode_hostSide : buildCode.Within SameHostSide := by
  intro s
  unfold buildCode
  dsimp only
  split
  · simp [SameHostSide]
  · refine SameHostSide.trans ?_ (hostSide_bind (stream_hostSide (emitBytes_within _))
      (fun _ => engineSet_hostSide fun s => complete_hostSide s .ok) _)
    simp [SameHostSide]

/-- No token's body changes the host's side. -/
theorem TokenBody.hostSide {ph : Phase} {m : Act Unit} (h : TokenBody ph m) : m.Within SameHostSide := by
  cases h with
  | refuse _ e => exact cursor_hostSide (raiseErr_within e)
  | zlibHeader => exact engineSet_hostSide fun s => setPhase_hostSide s _
  | blockStored | blockFixed | blockDynamic => exact engineSet_hostSide fun s => by simp [SameHostSide]
  | blockReserved =>
    exact hostSide_bind (engineSet_hostSide fun s => by simp [SameHostSide]) fun _ => cursor_hostSide (raiseErr_within _)
  | storedBlock n =>
    exact hostSide_bind (stream_hostSide (copyStored_within n)) fun _ => engineSet_hostSide fun s => setPhase_hostSide s _
  | dynHeader _ _ n =>
    exact hostSide_bind (readCodeLengthCode_hostSide n) fun _ => engineSet_hostSide fun s => by simp [SameHostSide]
  | clDirect c => exact hostSide_bind (appendLens_hostSide 1 c) fun _ => clNext_hostSide
  | clRepPrev => exact hostSide_bind (cursor_hostSide (readBits_within 2)) fun x s => clRun_hostSide _ _ s
  | clRepZero n k => exact hostSide_bind (cursor_hostSide (readBits_within n)) fun x => clRun_hostSide _ _
  | literal b => exact stream_hostSide (emit_within b)
  | endOfBlock => exact engineSet_hostSide fun s => setPhase_hostSide s _
  | length k =>
    exact hostSide_bind (cursor_hostSide (readBits_within _)) fun _ => engineSet_hostSide fun s => by simp [SameHostSide]
  | distance d => exact distSymbol_hostSide d
  | trailer a =>
    refine hostSide_bind (engineSet_hostSide fun s => by simp [SameHostSide]) fun _ s => ?_
    split <;> simp [SameHostSide]
  | filterRow pred =>
    exact fun s => hostSide_bind (stream_hostSide (unfilterBytes_within pred _ _ _))
      (fun _ => engineSet_hostSide rowEnd_hostSide) s
  | codeLength len =>
    intro s
    dsimp only
    split
    · simp [SameHostSide]
    · refine SameHostSide.trans ?_ (buildCode_hostSide _)
      simp [SameHostSide]

/-- The end of a token keeps what its body kept. -/
theorem tokenEnd_hostSide {m : Act Unit} (hm : m.Within SameHostSide) {s t : State} (h : tokenEnd (m s) = .next t) :
    SameHostSide s t := by
  have hs := hm s
  cases hr : m s with
  | ok a u =>
    rw [hr] at h hs
    cases h
    exact hs
  | raised e u =>
    rw [hr] at h hs
    cases h
    exact hs.trans (complete_hostSide u e)

theorem engineStep_hostSide {s t : State} (h : engineStep s = .next t) : SameHostSide s t := by
  obtain ⟨f, -, ⟨e, u, hv, rfl⟩ | ⟨v, u, m, hv, hm, ht⟩⟩ := engineStep_next h
  all_goals
    have hu := cursor_hostSide (fetchValue_within f) s
    rw [hv] at hu
  · exact hu.trans (complete_hostSide u e)
  · exact hu.trans (tokenEnd_hostSide hm.hostSide ht.symm)

/-- Settles O52: the fetch keeps all but the cursor, and every token's body keeps the host's side. -/
theorem engineLeavesHostSide : Obligations.EngineLeavesHostSide := fun _ _ => engineStep_hostSide

/-! ### The host's commands and writes -/

/-- Settles O1. -/
theorem startBeginsCommand : Obligations.StartBeginsCommand := by
  intro abort ie s hb c hc hp hl
  obtain ⟨he, hph⟩ := exec_startCommand hc
  rw [he, hph, ctrlWrite_start hb, startCommand_admitted hp hl]
  rfl

/-- Settles O5: all sixteen commands are CTRL writes, and a CTRL write while busy does not look at START or OP. -/
theorem commandWhileBusyOnlyStoresIeAndAbort : Obligations.CommandWhileBusyOnlyStoresIeAndAbort := by
  intro abort ie s hb
  refine ⟨fun c hc => ?_, fun c hc => ?_⟩
  · rw [(exec_startCommand hc).1, ctrlWrite_busy hb]
  · rw [exec_reservedCommand hc, ctrlWrite_busy hb]

/-- Settles O44. -/
theorem stepRunsHostWrite : Obligations.StepRunsHostWrite := by
  intro s rest w hbase
  refine ⟨fun hs => ?_, fun hs => ?_⟩
  · have hstep : step s = regWrite .ctrl w { s with host := rest } :=
      step_write_register hbase (BitVec.add_zero _).symm hs
    refine ⟨fun i hi => hstep.trans (regWrite_ctrl hi), fun h0 h1 => ?_⟩
    rw [hstep, regWrite_ctrl_store h0 h1]
    refine ⟨fun hb => ?_, fun hb => ctrlWrite_store (s := { s with host := rest }) hb ..⟩
    rw [ctrlWrite_busy (s := { s with host := rest }) hb, Bool.or_false]
  · exact (step_write_register (r := .status) hbase rfl hs).trans (regWrite_status _ w)

end Sys2Proof.Machine
end

section
/-! The state family, third part: the invariant inside a token. `Running` is what holds of a running command at every
point of a token, between its primitives as well; `Ready` adds what the position says before a token, and `Settled`
is a state that a token leaves. -/

namespace Sys2Proof.Machine

/-- What `Inv` says of the datapath, the code tables and memory, busy or idle. -/
structure Datapath (s : State) : Prop where
  cursor : s.p.toNat ≤ inputBits s
  output : s.out.toNat ≤ s.lat.dstCap.toNat
  adler : s.s1.toNat < Config.adlerMod ∧ s.s2.toNat < Config.adlerMod
  header : s.hdrvalid = true ↔ s.nblocks ≠ 0
  tables : s.tll.sized Config.nLitLen ∧ s.td.sized Config.nDist ∧ s.tcl.sized Config.nClen ∧
    s.lens.length = Config.nLens
  memory : Memory.wf s.mem

/-- What holds at every point of a running command, whatever the position in the sequence says: the part of `Inv` that
every primitive keeps. The reset input may be asserted (assumption 9). -/
structure Running (s : State) : Prop extends Datapath s where
  busy : s.busy = true
  flags : s.done = false ∧ s.errf = false ∧ s.err = .ok
  parameters : checkParameters s.lat = none

/-- A running command that waits for a token. -/
structure Ready (s : State) : Prop extends Running s where
  position : phaseOf s.lat.op.toNat s.phase = true
  sequence : PositionInv s

/-- The state a token leaves: the command waits for the next token, or has completed. -/
def Settled (t : State) : Prop := Ready t ∨ ∃ e u, Running u ∧ t = u.complete e

/-! ### The parameters of a running command (R122) -/

theorem checkParameters_none {l : Latched} (h : checkParameters l = none) :
    l.op.toNat ∈ [1, 2, 3] ∧ l.srcLen.toNat ≤ Config.srcLenMax ∧ (l.op.toNat = 2 → l.rows.toNat ≠ 0) ∧
      (l.op.toNat = 3 → 1 ≤ l.nsym.toNat) := by
  simp only [checkParameters, ite_eq_iff, reduceCtorEq, and_false, false_or] at h
  obtain ⟨hop, hlen, -, -, -, -, hgeo, hsym, -⟩ := h
  refine ⟨Classical.not_not.1 hop, Nat.not_lt.1 hlen, fun h2 h0 => hgeo ⟨h2, .inl h0⟩, fun h3 => ?_⟩
  by_contra h1
  exact hsym ⟨h3, fun h => h1 h.1⟩

theorem Running.inputBits_lt {s : State} (h : Running s) : inputBits s < 2 ^ 32 := by
  obtain ⟨-, hlen, -⟩ := checkParameters_none h.parameters
  simp only [Config.srcLenMax] at hlen
  simp only [inputBits]
  omega

/-! ### What the updates of the state keep -/

theorem Running.drawn {s : State} (h : Running s) : Running s.drawn := { h with }

theorem Running.setPhase {s : State} (h : Running s) (ph : Phase) : Running (s.setPhase ph) := { h with }

theorem Running.setMatch {s : State} (h : Running s) (n : Nat) : Running (s.setMatch n) := { h with }

theorem Running.setP {s : State} (h : Running s) {q : Nat} (hq : q ≤ inputBits s) : Running (s.setP q) :=
  { h with cursor := by rw [setP_toNat (hq.trans_lt h.inputBits_lt)]; exact hq }

theorem destAddr_lt (s : State) (k : Nat) : destAddr s k < Config.addrSpace := BitVec.isLt _

theorem adlerS1_lt (s1 : BitVec 16) (b : Byte) : (adlerS1 s1 b).toNat < Config.adlerMod := by
  simp only [adlerS1, Config.adlerMod, BitVec.toNat_ofNat]
  omega

theorem adlerS2_lt (s2 s1 : BitVec 16) : (adlerS2 s2 s1).toNat < Config.adlerMod := by
  simp only [adlerS2, Config.adlerMod, BitVec.toNat_ofNat]
  omega

theorem emitted_out_toNat {s : State} (h : s.out.toNat < s.lat.dstCap.toNat) (b : Byte) :
    (s.emitted b).out.toNat = s.out.toNat + 1 := by
  have := s.lat.dstCap.isLt
  rw [emitted_out, BitVec.toNat_ofNat]
  omega

theorem Running.emitted {s : State} (h : Running s) (ho : s.out.toNat < s.lat.dstCap.toNat) (b : Byte) :
    Running (s.emitted b) :=
  { h with
    output := by rw [emitted_out_toNat ho]; exact ho
    adler := ⟨adlerS1_lt _ _, adlerS2_lt _ _⟩
    memory := memWf_memWrite h.memory (destAddr_lt _ _) b }

theorem Running.stoppedAtEmit {s : State} (h : Running s) : Running s.stoppedAtEmit := by
  rcases stoppedAtEmit_cases s with he | ⟨-, -, b, he⟩
  · rwa [he]
  · rw [he]
    exact { h with memory := memWf_memWrite h.memory (destAddr_lt _ _) b }

theorem Running.latchHeader {s : State} (h : Running s) (final : Bool) (ty : BitVec 2) :
    Running (s.latchHeader final ty) := by
  refine { h with header := iff_of_true rfl fun h0 => ?_ }
  have h0 : _ = 0 := congrArg BitVec.toNat h0
  simp only [latchHeader_nblocks, BitVec.toNat_ofNat, min_def] at h0
  split at h0 <;> omega

theorem fixedLitLen_length : fixedLitLen.length = Config.nLitLen := by
  simp only [fixedLitLen, List.length_append, List.length_replicate, Config.nLitLen]

theorem fixedDist_length : fixedDist.length = Config.nDist := List.length_replicate

theorem Running.fixedTrees {s : State} (h : Running s) : Running s.fixedTrees :=
  { h with tables := ⟨fixedLitLen_length ▸ build_sized _, fixedDist_length ▸ build_sized _, h.tables.2.2⟩ }

theorem codeLengthLengths_length (values : List Nat) : (codeLengthLengths values).length = Config.nClen := by
  have key : ∀ (l : List (Nat × Nat)) (init : List (BitVec 4)),
      (l.foldl (fun cl (x : Nat × Nat) => cl.set x.1 (BitVec.ofNat 4 x.2)) init).length = init.length := by
    intro l
    induction l with
    | nil => exact fun _ => rfl
    | cons x l ih => exact fun init => (ih _).trans List.length_set
  exact (key _ _).trans List.length_replicate

theorem Running.codeLengthCode {s : State} (h : Running s) (values : List Nat) :
    Running { s with tcl := CodeTable.build (codeLengthLengths values) } := by
  obtain ⟨hll, hd, -, hl⟩ := h.tables
  exact { h with tables := ⟨hll, hd, codeLengthLengths_length values ▸ build_sized _, hl⟩ }

theorem Running.appendLens {s : State} (h : Running s) (r : Nat) (v : BitVec 4) : Running (s.appendLens r v) := by
  obtain ⟨hll, hd, hc, hl⟩ := h.tables
  exact { h with tables := ⟨hll, hd, hc, (setLens_length ..).trans hl⟩ }

theorem Running.pushLength {s : State} (h : Running s) (v : BitVec 4) : Running (s.pushLength v) := by
  obtain ⟨hll, hd, hc, hl⟩ := h.tables
  exact { h with tables := ⟨hll, hd, hc, List.length_set.trans hl⟩ }

theorem litLenLengths_length {s : State} (hl : s.lens.length = Config.nLens) (h : s.hlit ≤ 286) :
    (litLenLengths s).length = Config.nLitLen := by
  simp only [litLenLengths, List.length_append, List.length_take, List.length_replicate, hl, Config.nLens,
    Config.nLitLen]
  omega

theorem distLengths_length {s : State} (hl : s.lens.length = Config.nLens) (h : s.hlit ≤ 286) (hd : s.hdist ≤ 32) :
    (distLengths s).length = Config.nDist := by
  simp only [distLengths, List.length_append, List.length_take, List.length_drop, List.length_replicate, hl,
    Config.nLens, Config.nDist]
  omega

theorem Running.dynamicTrees {s : State} (h : Running s) (hlit : s.hlit ≤ 286) (hdist : s.hdist ≤ 32) :
    Running { s with tll := CodeTable.build (litLenLengths s), td := CodeTable.build (distLengths s),
                     phase := .litLenSymbol } := by
  obtain ⟨-, -, hc, hl⟩ := h.tables
  exact { h with tables := ⟨litLenLengths_length hl hlit ▸ build_sized _,
                            distLengths_length hl hlit hdist ▸ build_sized _, hc, hl⟩ }

/-! ### Pieces of pseudocode in a running command -/

/-- From state `s`, a value of the piece satisfies `Q`, and a raise leaves a running command to complete. -/
def Act.Meets {α : Type} (m : Act α) (s : State) (Q : α → State → Prop) : Prop :=
  match m s with
  | .ok a t => Q a t
  | .raised _ t => Running t

theorem Act.Meets.of_ok {α : Type} {m : Act α} {s t : State} {a : α} {Q : α → State → Prop} (h : m s = .ok a t)
    (hq : Q a t) : m.Meets s Q := by
  rw [Act.Meets, h]
  exact hq

theorem Act.Meets.of_raised {α : Type} {m : Act α} {s t : State} {e : ErrCode} {Q : α → State → Prop}
    (h : m s = .raised e t) (ht : Running t) : m.Meets s Q := by
  rw [Act.Meets, h]
  exact ht

theorem Act.Meets.bind {α β : Type} {m : Act α} {f : α → Act β} {s : State} {Q : α → State → Prop}
    {Q' : β → State → Prop} (hm : m.Meets s Q) (hf : ∀ a t, Q a t → (f a).Meets t Q') : (m.bind f).Meets s Q' := by
  unfold Act.Meets at hm
  split at hm
  · rename_i a t h
    have := hf a t hm
    rwa [Act.Meets, ← Act.bind_ok (f := f) h] at this
  · rename_i e t h
    exact .of_raised (Act.bind_raised h) hm

theorem Act.Meets.mono {α : Type} {m : Act α} {s : State} {Q Q' : α → State → Prop} (hm : m.Meets s Q)
    (h : ∀ a t, Q a t → Q' a t) : m.Meets s Q' := by
  unfold Act.Meets at *
  split at hm
  · exact h _ _ hm
  · exact hm

theorem Act.Meets.pure {α : Type} {s : State} {a : α} {Q : α → State → Prop} (h : Q a s) : (Act.pure a).Meets s Q := h

theorem Act.Meets.engineSet {s : State} {f : State → State} {Q : Unit → State → Prop} (h : Q () (f s)) :
    (engineSet f).Meets s Q := h

theorem Act.Meets.ite {α : Type} {c : State → Prop} {_ : ∀ s, Decidable (c s)} {m m' : Act α} {s : State}
    {Q : α → State → Prop} (hm : c s → m.Meets s Q) (hm' : ¬c s → m'.Meets s Q) :
    Act.Meets (fun s => if c s then m s else m' s) s Q := by
  by_cases hc : c s
  · have := hm hc
    rwa [Act.Meets, ← if_pos (c := c s) (t := m s) (e := m' s) hc] at this
  · have := hm' hc
    rwa [Act.Meets, ← if_neg (c := c s) (t := m s) (e := m' s) hc] at this

/-- A test that raises, or goes on. -/
theorem Act.Meets.guard {α : Type} {c : State → Prop} {_ : ∀ s, Decidable (c s)} {e : ErrCode} {m : Act α} {s : State}
    {Q : α → State → Prop} (h : Running s) (hm : ¬c s → m.Meets s Q) :
    Act.Meets (fun s => if c s then .raised e s else m s) s Q :=
  .ite (m := raiseErr e) (fun _ => h) hm

/-- `t` follows `s` inside a token of a running command, by `dp` bits of input and `dout` bytes of output. -/
structure Advances (s t : State) (dp dout : Nat) : Prop where
  stream : OnlyStream s t
  running : Running t
  cursor : t.p.toNat = s.p.toNat + dp
  output : t.out.toNat = s.out.toNat + dout

theorem Advances.refl {s : State} (h : Running s) : Advances s s 0 0 := ⟨.refl s, h, rfl, rfl⟩

theorem Advances.trans {a b c : State} {dp dp' dout dout' : Nat} (h : Advances a b dp dout)
    (h' : Advances b c dp' dout') : Advances a c (dp + dp') (dout + dout') :=
  ⟨h.stream.trans h'.stream, h'.running, by rw [h'.cursor, h.cursor, Nat.add_assoc],
    by rw [h'.output, h.output, Nat.add_assoc]⟩

theorem boundary_meets {s : State} (h : Running s) : boundary.Meets s fun _ t => Advances s t 0 0 := by
  rcases boundary_cases s with hb | hb | ⟨-, hb⟩
  · exact .of_ok hb (.refl h)
  · exact .of_ok hb ⟨rfl, h.drawn, rfl, rfl⟩
  · exact .of_raised hb h.drawn

/-- The cursor moved on inside the input. -/
theorem Running.advances_setP {s : State} (h : Running s) {n : Nat} (hn : s.p.toNat + n ≤ inputBits s) :
    Advances s (s.setP (s.p.toNat + n)) n 0 :=
  ⟨rfl, h.setP hn, setP_toNat (hn.trans_lt h.inputBits_lt), rfl⟩

theorem readBits_meets {s : State} (h : Running s) (n : Nat) :
    (readBits n).Meets s fun v t => v < 2 ^ n ∧ Advances s t n 0 := by
  refine (boundary_meets h).bind fun _ u hu => ?_
  by_cases hb : inputBits u < u.p.toNat + n
  · exact .of_raised (if_pos hb) hu.running
  · refine .of_ok (if_neg hb) ⟨peekBits_lt u n, ?_⟩
    simpa using hu.trans (hu.running.advances_setP (Nat.not_lt.1 hb))

theorem alignToByte_meets {s : State} (h : Running s) : alignToByte.Meets s fun _ t => ∃ dp, Advances s t dp 0 := by
  refine (boundary_meets h).bind fun _ u hu => ?_
  have hle := hu.running.cursor
  obtain ⟨n, hn⟩ : ∃ n, 8 * ((u.p.toNat + 7) / 8) = u.p.toNat + n := ⟨_, (Nat.add_sub_of_le (by omega)).symm⟩
  have hb : u.p.toNat + n ≤ inputBits u := by
    simp only [inputBits] at hle ⊢
    omega
  exact .of_ok rfl ⟨0 + n, hn ▸ hu.trans (hu.running.advances_setP hb)⟩

theorem decodeSym_meets {s : State} (h : Running s) (t : CodeTable) :
    (decodeSym t).Meets s fun v u => v < t.lengths.length ∧ ∃ dp, Advances s u dp 0 := by
  refine (boundary_meets h).bind fun _ u hu => ?_
  cases hd : t.decode fun i => peekBit u (u.p.toNat + i) with
  | none => exact .of_raised (by rw [hd]; rfl) hu.running
  | some r =>
    obtain ⟨sym, len⟩ := r
    by_cases hb : inputBits u < u.p.toNat + len
    · exact .of_raised (by rw [hd]; exact if_pos hb) hu.running
    · exact .of_ok (by rw [hd]; exact if_neg hb)
        ⟨(decode_spec hd).1, _, hu.trans (hu.running.advances_setP (Nat.not_lt.1 hb))⟩

theorem readFields_meets (n k : Nat) :
    ∀ {s : State}, Running s → (readFields n k).Meets s fun _ t => ∃ dp, Advances s t dp 0 := by
  induction k with
  | zero => exact fun h => .pure ⟨0, .refl h⟩
  | succ k ih =>
    exact fun h => (readBits_meets h n).bind fun _ t ⟨_, ht⟩ =>
      (ih ht.running).bind fun _ u ⟨_, hu⟩ => .pure ⟨_, ht.trans hu⟩

theorem emitBoundary_meets {s : State} (h : Running s) : emitBoundary.Meets s fun _ t => Advances s t 0 0 := by
  rcases boundary_cases s with hb | hb | ⟨-, hb⟩
  · exact .of_ok (by rw [emitBoundary, hb]) (.refl h)
  · exact .of_ok (t := s.drawn) (by rw [emitBoundary, hb]) ⟨rfl, h.drawn, rfl, rfl⟩
  · exact .of_raised (by rw [emitBoundary, hb]) h.drawn.stoppedAtEmit

theorem emit_meets {s : State} (h : Running s) (b : Byte) : (emit b).Meets s fun _ t => Advances s t 0 1 := by
  refine (emitBoundary_meets h).bind fun _ u hu => ?_
  by_cases hb : u.lat.dstCap.toNat ≤ u.out.toNat
  · exact .of_raised (if_pos hb) hu.running
  · have hlt := Nat.not_le.1 hb
    have ha : Advances u (u.emitted b) 0 1 := ⟨rfl, hu.running.emitted hlt b, rfl, emitted_out_toNat hlt b⟩
    exact .of_ok (if_neg hb) (hu.trans ha)

theorem outByte_meets {s : State} (h : Running s) (k : Nat) : (outByte k).Meets s fun _ t => Advances s t 0 0 :=
  (boundary_meets h).bind fun _ _ hu => .of_ok rfl hu

theorem neighbour_meets {s : State} (h : Running s) (inside : Bool) (k : Nat) :
    (neighbour inside k).Meets s fun _ t => Advances s t 0 0 := by
  cases inside with
  | false => exact .pure (.refl h)
  | true => exact (outByte_meets h k).bind fun _ _ ht => .pure ht

theorem neighbours_meets {s : State} (h : Running s) (i start : Nat) :
    (neighbours i start).Meets s fun _ t => Advances s t 0 0 :=
  Act.Meets.bind (neighbour_meets h _ _) fun _ _ ha => (neighbour_meets ha.running _ _).bind fun _ _ hb =>
    (neighbour_meets hb.running _ _).bind fun _ _ hc => .pure ((ha.trans hb).trans hc)

/-! ### The loops -/

theorem copyStored_meets (n : Nat) :
    ∀ {s : State}, Running s → (copyStored n).Meets s fun _ t => Advances s t (8 * n) n := by
  induction n with
  | zero => exact fun h => .pure (.refl h)
  | succ n ih =>
    intro s h
    refine (readBits_meets h 8).bind fun b t ⟨_, ht⟩ => (emit_meets ht.running _).bind fun _ u hu => ?_
    refine (ih hu.running).mono fun _ w hw => ?_
    convert (ht.trans hu).trans hw using 1 <;> omega

theorem copyMatch_meets (dist n : Nat) :
    ∀ {s : State}, Running s → (copyMatch dist n).Meets s fun _ t => Advances s t 0 n := by
  induction n with
  | zero => exact fun h => .pure (.refl h)
  | succ n ih =>
    intro s h
    refine Act.Meets.bind (outByte_meets h _) fun b t ht => (emit_meets ht.running b).bind fun _ u hu => ?_
    refine (ih hu.running).mono fun _ w hw => ?_
    convert (ht.trans hu).trans hw using 1
    omega

theorem emitBytes_meets (bytes : List Byte) :
    ∀ {s : State}, Running s → (emitBytes bytes).Meets s fun _ t => Advances s t 0 bytes.length := by
  induction bytes with
  | nil => exact fun h => .pure (.refl h)
  | cons b bytes ih =>
    intro s h
    refine (emit_meets h b).bind fun _ t ht => (ih ht.running).mono fun _ u hu => ?_
    convert ht.trans hu using 1
    rw [List.length_cons, Nat.add_comm]

theorem unfilterBytes_meets (pred : Nat → Nat → Nat → Nat) (start n : Nat) :
    ∀ {s : State} (i : Nat), Running s →
      (unfilterBytes pred start i n).Meets s fun _ t => Advances s t (8 * n) n := by
  induction n with
  | zero => exact fun _ h => .pure (.refl h)
  | succ n ih =>
    intro s i h
    refine (readBits_meets h 8).bind fun x t ⟨_, ht⟩ => (neighbours_meets ht.running _ _).bind fun _ u hu =>
      (emit_meets hu.running _).bind fun _ v hv => (ih (i + 1) hv.running).mono fun _ w hw => ?_
    convert ((ht.trans hu).trans hv).trans hw using 1 <;> omega

end Sys2Proof.Machine
end

section
/-! The state family, fourth part: the fetch of a token and the token's body in a running command; the engine always
steps, and every step keeps the invariant (O47, O48, O49). -/

namespace Sys2Proof.Machine

/-! ### The fetch -/

/-- The value of a field of fixed width names an instruction. -/
theorem decode_field {f : Format} {v : Nat} (hv : v < 2 ^ f.bits)
    (hf : f ∈ [.zhdr, .bhdr, .stored, .dynHdr, .trailer, .filterRow, .codeLen]) : ∃ i, decode f v = .ok i := by
  simp only [List.mem_cons, List.not_mem_nil, or_false] at hf
  rcases hf with rfl | rfl | rfl | rfl | rfl | rfl | rfl <;> exact ⟨_, if_neg (Nat.not_le.2 hv)⟩

theorem decode_clSym {v : Nat} (hv : v < Config.nClen) : ∃ i, decode .clSym v = .ok i := by
  have hv : v < 19 := hv
  have hb : ¬2 ^ Format.clSym.bits ≤ v := by simp only [Format.bits]; omega
  rw [decode, if_neg hb]
  exact symbolAt_of_lt hv

theorem decode_dist {v : Nat} (hv : v < Config.nDist) : ∃ i, decode .dist v = .ok i := by
  have hv : v < 32 := hv
  have hb : ¬2 ^ Format.dist.bits ≤ v := by simp only [Format.bits]; omega
  rw [decode, if_neg hb]
  exact symbolAt_of_lt hv

theorem decode_litLen {v : Nat} (hv : v < Config.nLitLen) : ∃ i, decode .litLen v = .ok i := by
  have hv : v < 288 := hv
  have hb : ¬2 ^ Format.litLen.bits ≤ v := by simp only [Format.bits]; omega
  rw [decode, if_neg hb, decodeLitLen]
  split
  · exact ⟨_, rfl⟩
  · split
    · exact ⟨_, rfl⟩
    · have hl : v - 257 < 31 := by omega
      exact symbolAt_of_lt hl

/-- In a running command, the value fetched names an instruction, and the state is that of the token with the cursor
moved on: by the one byte in UNFILTER and HUFF_BUILD. -/
theorem fetchValue_meets {s : State} (h : Running s) {f : Format} (hf : s.phase.format = some f) :
    (fetchValue f).Meets s fun v t => (∃ i, decode f v = .ok i) ∧
      ∃ dp, Advances s t dp 0 ∧ (s.phase = .rowHeader ∨ s.phase = .codeLength → dp = 8) := by
  obtain ⟨⟨hll, -⟩, ⟨hd, -⟩, ⟨hc, -⟩, -⟩ := h.tables
  cases hph : s.phase <;> rw [hph] at hf <;> cases hf
  case zlibHeader =>
    refine (readBits_meets h 8).bind fun a t ⟨ha, ht⟩ => (readBits_meets ht.running 8).bind fun b u ⟨hb, hu⟩ =>
      .pure ⟨decode_field ?_ (by simp), _, ht.trans hu, by simp⟩
    simp only [Format.bits]
    omega
  case blockHeader =>
    refine (readBits_meets h 1).bind fun a t ⟨ha, ht⟩ => (readBits_meets ht.running 2).bind fun b u ⟨hb, hu⟩ =>
      .pure ⟨decode_field ?_ (by simp), _, ht.trans hu, by simp⟩
    simp only [Format.bits]
    omega
  case storedHeader =>
    refine (alignToByte_meets h).bind fun _ r ⟨_, hr⟩ => (readBits_meets hr.running 16).bind fun a t ⟨ha, ht⟩ =>
      (readBits_meets ht.running 16).bind fun b u ⟨hb, hu⟩ =>
        .pure ⟨decode_field ?_ (by simp), _, (hr.trans ht).trans hu, by simp⟩
    simp only [Format.bits]
    omega
  case dynHeader =>
    refine (readBits_meets h 5).bind fun a t ⟨ha, ht⟩ => (readBits_meets ht.running 5).bind fun b u ⟨hb, hu⟩ =>
      (readBits_meets hu.running 4).bind fun c v ⟨hc, hv⟩ =>
        .pure ⟨decode_field ?_ (by simp), _, (ht.trans hu).trans hv, by simp⟩
    simp only [Format.bits]
    omega
  case clSymbol =>
    exact Act.Meets.mono (decodeSym_meets h s.tcl) fun v t ⟨hv, dp, ht⟩ => ⟨decode_clSym (hc ▸ hv), dp, ht, by simp⟩
  case litLenSymbol =>
    exact Act.Meets.mono (decodeSym_meets h s.tll) fun v t ⟨hv, dp, ht⟩ => ⟨decode_litLen (hll ▸ hv), dp, ht, by simp⟩
  case distSymbol =>
    exact Act.Meets.mono (decodeSym_meets h s.td) fun v t ⟨hv, dp, ht⟩ => ⟨decode_dist (hd ▸ hv), dp, ht, by simp⟩
  case trailer =>
    refine (alignToByte_meets h).bind fun _ r ⟨_, hr⟩ => (readBits_meets hr.running 8).bind fun a t ⟨ha, ht⟩ =>
      (readBits_meets ht.running 8).bind fun b u ⟨hb, hu⟩ => (readBits_meets hu.running 8).bind fun c v ⟨hc, hv⟩ =>
        (readBits_meets hv.running 8).bind fun d w ⟨hd, hw⟩ =>
          .pure ⟨decode_field ?_ (by simp), _, (((hr.trans ht).trans hu).trans hv).trans hw, by simp⟩
    simp only [Format.bits]
    omega
  case rowHeader =>
    exact (readBits_meets h 8).mono fun v t ⟨hv, ht⟩ => ⟨decode_field hv (by simp), 8, ht, fun _ => rfl⟩
  case codeLength =>
    exact (readBits_meets h 8).mono fun v t ⟨hv, ht⟩ => ⟨decode_field hv (by simp), 8, ht, fun _ => rfl⟩

/-! ### The body -/

/-- A running command whose token at position `ph` has been fetched: what `PositionInv` says, with the cursor past the
token. -/
structure Fetched (ph : Phase) (s : State) : Prop extends Running s where
  phase : s.phase = ph
  position : phaseOf s.lat.op.toNat ph = true
  lengths : ph = .clSymbol → 257 ≤ s.hlit ∧ s.hlit ≤ 286 ∧ 1 ≤ s.hdist ∧ s.hdist ≤ 32
  row : ph = .rowHeader → s.row < s.lat.rows.toNat ∧ s.out.toNat = s.row * s.lat.rowBytes.toNat ∧
    s.p.toNat = 8 * (s.row * (1 + s.lat.rowBytes.toNat)) + 8
  symbol : ph = .codeLength → s.symIdx < s.lat.nsym.toNat ∧ s.out = 0 ∧ s.p.toNat = 8 * s.symIdx + 8

theorem OnlyStream.lat {s t : State} (h : OnlyStream s t) : t.lat = s.lat := h.hostSide.lat

theorem OnlyStream.phase {s t : State} (h : OnlyStream s t) : t.phase = s.phase := by rw [h]

theorem OnlyStream.hlit {s t : State} (h : OnlyStream s t) : t.hlit = s.hlit := by rw [h]

theorem OnlyStream.hdist {s t : State} (h : OnlyStream s t) : t.hdist = s.hdist := by rw [h]

theorem OnlyStream.row {s t : State} (h : OnlyStream s t) : t.row = s.row := by rw [h]

theorem OnlyStream.symIdx {s t : State} (h : OnlyStream s t) : t.symIdx = s.symIdx := by rw [h]

theorem Ready.fetched {s t : State} {dp : Nat} (h : Ready s) (ht : Advances s t dp 0)
    (hdp : s.phase = .rowHeader ∨ s.phase = .codeLength → dp = 8) : Fetched s.phase t := by
  have hseq := h.sequence
  refine { ht.running with phase := ht.stream.phase, position := ht.stream.lat ▸ h.position, lengths := fun hph => ?_,
                           row := fun hph => ?_, symbol := fun hph => ?_ }
  all_goals simp only [PositionInv, hph] at hseq
  · obtain ⟨h1, h2, h3, h4, -⟩ := hseq
    rw [ht.stream.hlit, ht.stream.hdist]
    exact ⟨h1, h2, h3, h4⟩
  · obtain ⟨hrow, hout, hp⟩ := hseq
    rw [ht.stream.row, ht.stream.lat, ht.output, ht.cursor, hdp (.inl hph), hp]
    exact ⟨hrow, hout, rfl⟩
  · obtain ⟨hsym, hout, hp⟩ := hseq
    rw [ht.stream.symIdx, ht.stream.lat, ht.cursor, hdp (.inr hph), hp]
    exact ⟨hsym, BitVec.eq_of_toNat_eq (ht.output.trans (congrArg BitVec.toNat hout)), rfl⟩

theorem Running.completes {s : State} (h : Running s) (e : ErrCode) : Settled (s.complete e) := .inr ⟨e, s, h, rfl⟩

/-- INFLATE goes on to a position that says nothing more of the state. -/
theorem Running.waits {s : State} (h : Running s) (hop : s.lat.op.toNat = 1)
    (hph : s.phase ∈ [.blockHeader, .storedHeader, .dynHeader, .litLenSymbol, .trailer]) : Settled s := by
  refine .inl { h with position := ?_, sequence := ?_ }
  all_goals
    simp only [List.mem_cons, List.not_mem_nil, or_false] at hph
    rcases hph with hph | hph | hph | hph | hph
  all_goals simp [PositionInv, phaseOf, hph, hop]

theorem Running.blockEnd {s : State} (h : Running s) (hop : s.lat.op.toNat = 1) : Settled s.blockEnd := by
  unfold State.blockEnd
  split
  · exact (h.setPhase .trailer).waits hop (by simp)
  · exact (h.setPhase .blockHeader).waits hop (by simp)

/-- INFLATE is the command of every position but the last two. -/
theorem Fetched.inflate {ph : Phase} {s : State} (h : Fetched ph s) (hr : ph ≠ .rowHeader := by simp)
    (hc : ph ≠ .codeLength := by simp) : s.lat.op.toNat = 1 := by
  have := h.position
  cases ph <;> simp_all [phaseOf]

theorem readCodeLengthCode_meets {s : State} (h : Running s) (n : Nat) :
    (readCodeLengthCode n).Meets s fun _ t => Running t ∧ t.lat = s.lat :=
  (readFields_meets 3 n h).bind fun values _ ⟨_, ht⟩ =>
    .guard ht.running fun _ => .of_ok rfl ⟨ht.running.codeLengthCode values, ht.stream.lat⟩

theorem buildDynamicTrees_meets {s : State} (h : Fetched .clSymbol s) :
    buildDynamicTrees.Meets s fun _ t => Settled t := by
  obtain ⟨-, hlit, -, hdist⟩ := h.lengths rfl
  have hr := h.toRunning
  refine Act.Meets.guard hr fun _ => .guard hr fun _ => .guard hr fun _ => .of_ok rfl ?_
  exact (hr.dynamicTrees hlit hdist).waits h.inflate (by simp)

/-- The code-length sequence goes on, or the trees are built. -/
theorem clNext_meets {s : State} (h : Fetched .clSymbol s) : clNext.Meets s fun _ t => Settled t := by
  obtain ⟨h1, h2, h3, h4⟩ := h.lengths rfl
  refine .ite (fun hn => .of_ok rfl (.inl { h with position := ?_, sequence := ?_ })) fun _ => buildDynamicTrees_meets h
  · exact h.phase ▸ h.position
  · simp only [PositionInv, h.phase]
    exact ⟨h1, h2, h3, h4, hn⟩

theorem Fetched.appendLens {s : State} (h : Fetched .clSymbol s) (r : Nat) (v : BitVec 4) :
    Fetched .clSymbol (s.appendLens r v) :=
  { h.toRunning.appendLens r v with
    phase := h.phase, position := h.position, lengths := h.lengths, row := nofun, symbol := nofun }

theorem clRun_meets {s : State} (h : Fetched .clSymbol s) (r : Nat) (v : BitVec 4) :
    (clRun r v).Meets s fun _ t => Settled t :=
  .guard h.toRunning fun _ =>
    Act.Meets.bind (Q := fun _ t => Fetched .clSymbol t) (.engineSet (h.appendLens r v)) fun _ _ => clNext_meets

/-- Extra bits read after a code-length symbol leave what its position says. -/
theorem Fetched.extraBits {s t : State} {n : Nat} (h : Fetched .clSymbol s) (ht : Advances s t n 0) :
    Fetched .clSymbol t :=
  { ht.running with
    phase := ht.stream.phase.trans h.phase, position := ht.stream.lat ▸ h.position,
    lengths := by rw [ht.stream.hlit, ht.stream.hdist]; exact h.lengths, row := nofun, symbol := nofun }

theorem lengthSymbol_range {k x : Nat} (hk : k < 29) (hx : x < 2 ^ lengthExtraOf k) :
    3 ≤ lengthBaseOf k + x ∧ lengthBaseOf k + x ≤ 258 := by
  have key : ∀ k < 29, 3 ≤ lengthBaseOf k ∧ lengthBaseOf k + 2 ^ lengthExtraOf k ≤ 259 := by decide
  obtain ⟨hlo, hhi⟩ := key k hk
  omega

theorem lengthSymbol_meets {s : State} (h : Fetched .litLenSymbol s) {k : Nat} (hk : k < 29) :
    (lengthSymbol k).Meets s fun _ t => Settled t := by
  refine (readBits_meets h.toRunning _).bind fun x t ⟨hx, ht⟩ => .engineSet (.inl ?_)
  exact { ht.running.setMatch _ with position := by simp [phaseOf, ht.stream.lat, h.inflate]
                                     sequence := lengthSymbol_range hk hx }

theorem distSymbol_meets {s : State} (h : Fetched .distSymbol s) (d : Nat) :
    (distSymbol d).Meets s fun _ t => Settled t := by
  refine (readBits_meets h.toRunning _).bind fun x t ⟨_, ht⟩ => .guard ht.running fun _ => ?_
  refine Act.Meets.bind (copyMatch_meets _ _ ht.running) fun _ u hu => .engineSet ?_
  exact (hu.running.setPhase _).waits ((ht.stream.trans hu.stream).lat ▸ h.inflate) (by simp)

/-- A row takes its filter byte and `RB` bytes of input, and gives `RB` bytes of output. -/
theorem unfilterRow_meets {s : State} (h : Fetched .rowHeader s) (pred : Nat → Nat → Nat → Nat) :
    (unfilterRow pred).Meets s fun _ t => Settled t := by
  obtain ⟨-, hout, hp⟩ := h.row rfl
  refine Act.Meets.bind (unfilterBytes_meets pred _ _ 0 h.toRunning) fun _ t ht => .engineSet ?_
  have hlat := ht.stream.lat
  have hrow := ht.stream.row
  unfold State.rowEnd
  split
  · rename_i hnext
    refine .inl { ht.running with position := ?_, sequence := ⟨hnext, ?_, ?_⟩ }
    · show phaseOf t.lat.op.toNat .rowHeader = true
      exact hlat ▸ h.position
    · show t.out.toNat = (t.row + 1) * t.lat.rowBytes.toNat
      rw [ht.output, hlat, hrow, hout, Nat.succ_mul]
    · show t.p.toNat = 8 * ((t.row + 1) * (1 + t.lat.rowBytes.toNat))
      rw [ht.cursor, hlat, hrow, hp, Nat.add_mul s.row]
      omega
  · exact Running.completes (s := { t with row := t.row + 1 }) { ht.running with } .ok

theorem buildCode_meets {s : State} (h : Running s) : buildCode.Meets s fun _ t => Settled t := by
  have hb : ∀ t : CodeTable, Running { s with thb := t } := fun t => { h with }
  refine .guard h fun _ => ?_
  exact Act.Meets.bind (emitBytes_meets _ (hb _)) fun _ t ht => .engineSet (ht.running.completes .ok)

/-- In a running command, a token's body leaves the command waiting for a token, or completed. -/
theorem TokenBody.meets {ph : Phase} {m : Act Unit} {s : State} (hm : TokenBody ph m) (h : Fetched ph s) :
    m.Meets s fun _ t => Settled t := by
  have hr := h.toRunning
  cases hm with
  | refuse => exact .of_raised rfl hr
  | zlibHeader =>
    exact .engineSet ((hr.setPhase _).waits h.inflate (by simp))
  | blockStored final =>
    exact .engineSet (((hr.latchHeader final 0).setPhase _).waits h.inflate (by simp))
  | blockFixed final =>
    exact .engineSet (((hr.latchHeader final 1).fixedTrees.setPhase _).waits h.inflate (by simp))
  | blockDynamic final =>
    exact .engineSet (((hr.latchHeader final 2).setPhase _).waits h.inflate (by simp))
  | blockReserved final => exact .of_raised rfl (hr.latchHeader final 3)
  | storedBlock n =>
    exact (copyStored_meets n hr).bind fun _ t ht =>
      .engineSet (ht.running.blockEnd (ht.stream.lat ▸ h.inflate))
  | dynHeader hlit hdist n hl =>
    have hl : hlit.toNat + 257 ≤ 286 := of_decide_eq_true hl
    have hd := hdist.isLt
    refine (readCodeLengthCode_meets hr n).bind fun _ t ⟨ht, hlat⟩ => .engineSet (.inl ?_)
    exact { ht with position := by simp [phaseOf, hlat, h.inflate], sequence := by simp only [PositionInv]; omega }
  | clDirect c =>
    exact Act.Meets.bind (Q := fun _ t => Fetched .clSymbol t) (.engineSet (h.appendLens 1 c)) fun _ _ => clNext_meets
  | clRepPrev => exact (readBits_meets hr 2).bind fun x t ⟨_, ht⟩ => clRun_meets (h.extraBits ht) _ _
  | clRepZero n k => exact (readBits_meets hr n).bind fun x t ⟨_, ht⟩ => clRun_meets (h.extraBits ht) _ _
  | literal b =>
    refine (emit_meets hr b).mono fun _ t ht => ?_
    have hph := ht.stream.phase.trans h.phase
    exact ht.running.waits (ht.stream.lat ▸ h.inflate) (by simp [hph])
  | endOfBlock => exact .engineSet (hr.blockEnd h.inflate)
  | length k hk => exact lengthSymbol_meets h hk
  | distance d => exact distSymbol_meets h d
  | trailer a =>
    have ht : Running { s with trailer := a } := { hr with }
    refine Act.Meets.bind (Q := fun _ t => Running t) (.engineSet ht) fun _ t ht => ?_
    exact .ite (fun _ => .of_ok rfl (ht.completes .ok)) fun _ => .of_raised rfl ht
  | filterRow pred => exact unfilterRow_meets h pred
  | codeLength len =>
    obtain ⟨-, hout, hp⟩ := h.symbol rfl
    refine .ite (m' := fun s => buildCode (s.pushLength len)) (fun hn => ?_) fun _ => buildCode_meets (hr.pushLength len)
    · refine .of_ok rfl (.inl { hr.pushLength len with position := ?_, sequence := ?_ })
      · exact h.phase ▸ h.position
      · simp only [PositionInv, pushLength_phase, h.phase]
        exact ⟨hn, hout, by rw [pushLength_p, hp, pushLength_symIdx]; omega⟩

/-- A running command that waits for a token always has a next state. -/
theorem Ready.engineStep {s : State} (h : Ready s) : ∃ t, engineStep s = .next t ∧ Settled t := by
  have hph : ∃ f, s.phase.format = some f := by
    have := h.position
    cases hp : s.phase <;> simp_all [phaseOf, Phase.format]
  obtain ⟨f, hf⟩ := hph
  have hv := fetchValue_meets h.toRunning hf
  unfold Act.Meets at hv
  split at hv
  · rename_i v u hu
    obtain ⟨⟨i, hi⟩, dp, hadv, hdp⟩ := hv
    obtain ⟨m, hm, he⟩ := exec_token hf hi u
    have hbody := hm.meets (h.fetched hadv hdp)
    rw [engineStep_ok hf hu hi, he]
    unfold Act.Meets at hbody
    split at hbody
    · rename_i t ht
      exact ⟨t, by rw [ht, tokenEnd_ok], hbody⟩
    · rename_i e t ht
      exact ⟨_, by rw [ht, tokenEnd_raised], hbody.completes e⟩
  · rename_i e u hu
    exact ⟨_, engineStep_raised hf hu, hv.completes e⟩

end Sys2Proof.Machine
end

section
/-! The state family, last part: the invariant of the machine at reset (O47) and over every step (O48), and that no
step is refused (O49). -/

namespace Sys2Proof.Machine

/-! ### The invariant, idle and running -/

theorem Inv.ready {s : State} (h : Inv s) (hb : s.busy = true) : Ready s :=
  { busy := hb, flags := h.busyFlags hb, parameters := h.parameters hb, cursor := h.cursor, output := h.output,
    adler := h.adler, header := h.header, tables := h.tables, memory := h.memory, position := h.position hb,
    sequence := h.sequence }

theorem Ready.inv {s : State} (h : Ready s) (hr : s.resetIn = false) : Inv s where
  busyPhase := iff_of_true h.busy fun hi => by simpa [phaseOf, hi] using h.position
  busyFlags _ := h.flags
  errCode he := by simp [h.flags.2.1] at he
  idleNoAbort hb := by simp [h.busy] at hb
  resetLow := hr
  parameters _ := h.parameters
  position _ := h.position
  cursor := h.cursor
  output := h.output
  adler := h.adler
  header := h.header
  tables := h.tables
  sequence := h.sequence
  memory := h.memory

theorem isError_ne_ok {e : ErrCode} (h : e.isError = true) : e ≠ .ok := by
  rintro rfl
  cases h

/-- A completed command is idle, whatever it was doing. -/
theorem Datapath.complete_inv {s : State} (h : Datapath s) (hr : s.resetIn = false) (e : ErrCode) :
    Inv (s.complete e) where
  busyPhase := iff_of_false nofun (· rfl)
  busyFlags := nofun
  errCode := isError_ne_ok
  idleNoAbort _ := rfl
  resetLow := hr
  parameters := nofun
  position := nofun
  cursor := h.cursor
  output := h.output
  adler := h.adler
  header := h.header
  tables := h.tables
  sequence := trivial
  memory := h.memory

theorem Settled.inv {t : State} (h : Settled t) (hr : t.resetIn = false) : Inv t := by
  obtain h | ⟨e, u, hu, rfl⟩ := h
  · exact h.inv hr
  · exact hu.toDatapath.complete_inv hr e

theorem Settled.memory {t : State} (h : Settled t) : Memory.wf t.mem := by
  obtain h | ⟨e, u, hu, rfl⟩ := h
  · exact h.memory
  · exact hu.memory

/-- The invariant says nothing of the platform, of the host and of the count of free values, and of memory only its
form. -/
theorem Inv.surroundings {s : State} (h : Inv s) {m : Memory} (hm : Memory.wf m) (plat : Config.Platform)
    (host : List HostItem) (rdata : List Byte) (draws : Nat) :
    Inv { s with mem := m, plat := plat, host := host, rdata := rdata, draws := draws } :=
  { h with memory := hm }

theorem Inv.host {s : State} (h : Inv s) (host : List HostItem) : Inv { s with host := host } :=
  h.surroundings h.memory s.plat host s.rdata s.draws

/-! ### Reset -/

theorem empty_sized (n : Nat) : (CodeTable.empty n).sized n := ⟨List.length_replicate, List.length_replicate⟩

/-- Settles O47: the reset state is idle, its sums are 1 and 0, and its tables have their alphabets' sizes. -/
theorem resetSatisfiesInvariant : Obligations.ResetSatisfiesInvariant where
  busyPhase := iff_of_false nofun (· rfl)
  busyFlags := nofun
  errCode := nofun
  idleNoAbort _ := rfl
  resetLow := rfl
  parameters := nofun
  position := nofun
  cursor := Nat.zero_le _
  output := Nat.zero_le _
  adler := by decide
  header := by decide
  tables := ⟨empty_sized _, empty_sized _, empty_sized _, List.length_replicate⟩
  sequence := trivial
  memory := ⟨.nil, nofun⟩

theorem deviceReset_inv {s : State} (h : Memory.wf s.mem) : Inv (deviceReset s) :=
  resetSatisfiesInvariant.surroundings h ..

/-- A reset during a command meets the token in progress with the reset input and an abort request asserted. -/
theorem Ready.reset {s : State} (h : Ready s) : Ready { s with abortReq := true, resetIn := true } := { h with }

/-- A reset always answers a next state. -/
theorem hostReset_next (s : State) : ∃ t, hostReset s = .next t := by
  unfold hostReset
  split
  · split <;> exact ⟨_, rfl⟩
  · exact ⟨_, rfl⟩

theorem hostReset_inv {s t : State} (h : Inv s) (ht : hostReset s = .next t) : Inv t := by
  unfold hostReset at ht
  split at ht
  · rename_i hb
    obtain ⟨u, hu, hset⟩ := (h.ready hb).reset.engineStep
    rw [hu] at ht
    cases ht
    exact deviceReset_inv hset.memory
  · cases ht
    exact deviceReset_inv h.memory

/-! ### The engine's turn -/

theorem engineTick_inv {s t : State} (h : Inv s) (ht : engineTick s = .next t) : Inv t := by
  unfold engineTick at ht
  split at ht
  · rename_i hb
    obtain ⟨u, hu, hset⟩ := (h.ready hb).engineStep
    obtain rfl : u = t := by
      rw [hu] at ht
      cases ht
      rfl
    exact hset.inv ((engineStep_hostSide hu).resetIn.trans h.resetLow)
  · cases ht
    exact h

theorem engineTick_next {s : State} (h : Inv s) : ∃ t, engineTick s = .next t := by
  unfold engineTick
  split
  · rename_i hb
    obtain ⟨t, ht, -⟩ := (h.ready hb).engineStep
    exact ⟨t, ht⟩
  · exact ⟨s, rfl⟩

/-! ### The host's writes and reads -/

/-- The datapath that START leaves (R34), before the parameter check. -/
theorem Inv.started {s : State} (h : Inv s) (op : BitVec 4) (ie : Bool) : Datapath (s.started op ie) where
  cursor := Nat.zero_le _
  output := Nat.zero_le _
  adler := by simp [Config.adlerMod]
  header := by simp
  tables := h.tables
  memory := h.memory

theorem firstPhase_position {op : BitVec 4} (h : op.toNat ∈ [1, 2, 3]) : phaseOf op.toNat (firstPhase op) = true := by
  simp only [List.mem_cons, List.not_mem_nil, or_false] at h
  rcases h with h | h | h <;> simp [firstPhase, phaseOf, h]

/-- The first token of an admitted command (R123 to R125): a row and a symbol exist, and nothing has been read. -/
theorem entered_sequence {s : State} {op : BitVec 4} (hop : op.toNat ∈ [1, 2, 3])
    (hrows : op.toNat = 2 → s.lat.rows.toNat ≠ 0) (hsym : op.toNat = 3 → 1 ≤ s.lat.nsym.toNat) (hp : s.p = 0)
    (hout : s.out = 0) : PositionInv (s.entered (firstPhase op)) := by
  simp only [List.mem_cons, List.not_mem_nil, or_false] at hop
  rcases hop with h | h | h
  · simp [PositionInv, firstPhase, h, hp, hout]
  · simpa [PositionInv, firstPhase, h, hp, hout] using Nat.pos_of_ne_zero (hrows h)
  · simpa [PositionInv, firstPhase, h, hp, hout] using Nat.pos_of_ne_zero (Nat.one_le_iff_ne_zero.1 (hsym h))

theorem startCommand_inv {s t : State} (h : Inv s) {op : BitVec 4} {ie : Bool}
    (ht : startCommand op ie s = .next t) : Inv t := by
  have hs := h.started op ie
  obtain rfl | ⟨hp, rfl⟩ := startCommand_next ht
  · exact hs.complete_inv h.resetLow .invalidParameter
  · obtain ⟨hop, -, hrows, hsym⟩ := checkParameters_none hp
    exact Ready.inv
      { hs with
        busy := rfl, flags := ⟨rfl, rfl, rfl⟩, parameters := hp, position := firstPhase_position hop,
        sequence := entered_sequence (s := s.started op ie) hop hrows hsym rfl rfl } h.resetLow

theorem ctrlWrite_inv {s t : State} (h : Inv s) {start abort ie : Bool} {op : BitVec 4}
    (ht : ctrlWrite start abort ie op s = .next t) : Inv t := by
  cases hb : s.busy with
  | true =>
    rw [ctrlWrite_busy hb] at ht
    cases ht
    exact { h with idleNoAbort := fun h' => by simp [hb] at h' }
  | false =>
    cases start with
    | true =>
      rw [ctrlWrite_start hb] at ht
      exact startCommand_inv h ht
    | false =>
      rw [ctrlWrite_store hb] at ht
      cases ht
      exact { h with }

theorem statusClear_inv {s : State} (h : Inv s) (d e : Bool) : Inv (s.statusClear d e) :=
  { h with
    busyFlags := fun hb => by
      obtain ⟨hd, he, hc⟩ := h.busyFlags hb
      exact ⟨by simp [hd], by simp [he], hc⟩
    errCode := fun he => h.errCode (by simp at he; exact he.1) }

theorem paramWrite_inv {s : State} (h : Inv s) (r : Reg) (w : Word) : Inv (paramWrite r w s) := by
  unfold paramWrite
  split
  · exact h
  · cases r <;> exact { h with }

theorem regWrite_inv {s t : State} (h : Inv s) {r : Reg} {w : Word} (ht : regWrite r w s = .next t) : Inv t := by
  unfold regWrite at ht
  split at ht
  · split at ht
    · obtain ⟨_, _, _, _, he⟩ := exec_decode_cmd ‹_›
      rw [he] at ht
      exact ctrlWrite_inv h ht
    · exact ctrlWrite_inv h ht
  · rw [decode_status] at ht
    cases ht
    exact statusClear_inv h _ _
  all_goals
    cases ht
    exact paramWrite_inv h _ w

theorem regWrite_not_refused (r : Reg) (w : Word) (s : State) (e : Refusal) : regWrite r w s ≠ .refused e := by
  unfold regWrite
  split
  · split
    · obtain ⟨_, _, _, _, he⟩ := exec_decode_cmd ‹_›
      rw [he]
      exact ctrlWrite_not_refused _ _ _ _ s e
    · exact ctrlWrite_not_refused _ _ _ _ s e
  · rw [decode_status]
    nofun
  all_goals nofun

/-- A host access reaches memory only where the platform backs it. -/
theorem busTarget_memory {pl : Config.Platform} {a n : Nat} (h : busTarget pl a n = .memory) :
    a + n ≤ Config.addrSpace := by
  unfold busTarget at h
  split at h
  · split at h
    · split at h <;> cases h
    · cases h
  · split at h
    · rename_i hb
      simp only [backed, Bool.and_eq_true, decide_eq_true_eq] at hb
      exact hb.1
    · cases h

theorem hostWrite_inv {s t : State} (h : Inv s) {a : Word} {bytes : List Byte}
    (ht : hostWrite a bytes s = .next t) : Inv t := by
  unfold hostWrite at ht
  split at ht
  · exact regWrite_inv h ht
  · rename_i hm
    unfold hostMemWrite at ht
    split at ht
    · cases ht
    · cases ht
      exact h.surroundings (memWf_memWriteBytes h.memory (busTarget_memory hm)) ..
  · cases ht

theorem hostWrite_not_refused (a : Word) (bytes : List Byte) (s : State) (r : Refusal) :
    hostWrite a bytes s ≠ .refused r := by
  unfold hostWrite
  split
  · exact regWrite_not_refused _ _ s r
  · unfold hostMemWrite
    split <;> nofun
  · nofun

theorem hostRegRead_inv {s : State} (h : Inv s) (r : Reg) : Inv (hostRegRead r s) := by
  unfold hostRegRead regRead
  split <;> exact h.surroundings h.memory ..

theorem hostRead_inv {s t : State} (h : Inv s) {a : Word} {n : Nat} (ht : hostRead a n s = .next t) : Inv t := by
  unfold hostRead at ht
  split at ht
  · cases ht
    exact hostRegRead_inv h _
  · unfold hostMemRead at ht
    split at ht
    · cases ht
    · cases ht
      exact h.surroundings h.memory ..
  · cases ht

theorem hostRead_not_refused (a : Word) (n : Nat) (s : State) (r : Refusal) : hostRead a n s ≠ .refused r := by
  unfold hostRead
  split
  · nofun
  · unfold hostMemRead
    split <;> nofun
  · nofun

/-! ### The step -/

theorem step_waitDone {s : State} {rest : List HostItem} (h : s.host = ⟨0, .waitDone⟩ :: rest) :
    step s = if s.done then .next { s with host := rest } else engineTick s := by
  simp only [step, h]

/-- Whose turn a step is: the engine's, on the state or on one that differs in its host actions; or a host action's. -/
theorem step_cases (s : State) :
    (∃ host, step s = engineTick { s with host := host }) ∨
      ∃ rest, step s = .next { s with host := rest } ∨ step s = hostReset { s with host := rest } ∨
        (∃ a bytes, step s = hostWrite a bytes { s with host := rest }) ∨
        ∃ a n, step s = hostRead a n { s with host := rest } := by
  rcases hh : s.host with _ | ⟨⟨_ | k, act⟩, rest⟩
  · exact .inl ⟨s.host, step_idle hh⟩
  · cases act with
    | write a bytes => exact .inr ⟨rest, .inr (.inr (.inl ⟨a, bytes, step_write hh⟩))⟩
    | read a n => exact .inr ⟨rest, .inr (.inr (.inr ⟨a, n, step_read hh⟩))⟩
    | waitDone =>
      by_cases hd : s.done = true
      · exact .inr ⟨rest, .inl ((step_waitDone hh).trans (if_pos hd))⟩
      · exact .inl ⟨s.host, (step_waitDone hh).trans (if_neg hd)⟩
    | reset => exact .inr ⟨rest, .inr (.inl (step_reset hh))⟩
  · exact .inl ⟨_, step_wait hh⟩

/-- Settles O48: a token leaves a running command ready for the next token or completed, with the reset input as it was;
every host action keeps the invariant of its own. -/
theorem stepKeepsInvariant : Obligations.StepKeepsInvariant := by
  intro s t h ht
  obtain ⟨host, hs⟩ | ⟨rest, hs | hs | ⟨a, bytes, hs⟩ | ⟨a, n, hs⟩⟩ := step_cases s <;> rw [hs] at ht
  · exact engineTick_inv (h.host host) ht
  · cases ht
    exact h.host rest
  · exact hostReset_inv (h.host rest) ht
  · exact hostWrite_inv (h.host rest) ht
  · exact hostRead_inv (h.host rest) ht

/-- Settles O49: a running command that meets the invariant fetches a value that names an instruction, or raises; no host
action is refused. -/
theorem engineAlwaysSteps : Obligations.EngineAlwaysSteps := by
  intro s h
  refine ⟨fun r hr => ?_, fun hb => ?_, fun hh => ?_⟩
  · obtain ⟨host, hs⟩ | ⟨rest, hs | hs | ⟨a, bytes, hs⟩ | ⟨a, n, hs⟩⟩ := step_cases s <;> rw [hs] at hr
    · obtain ⟨t, ht⟩ := engineTick_next (h.host host)
      rw [ht] at hr
      cases hr
    · cases hr
    · obtain ⟨t, ht⟩ := hostReset_next { s with host := rest }
      rw [ht] at hr
      cases hr
    · exact hostWrite_not_refused _ _ _ _ hr
    · exact hostRead_not_refused _ _ _ _ hr
  · obtain ⟨t, ht, -⟩ := (h.ready hb).engineStep
    exact ⟨t, ht⟩
  · rw [step_idle hh]
    exact engineTick_next h

end Sys2Proof.Machine
end

section
/-! The memory family: where an engine step writes (O51), and the host accesses that have no step (O58). -/

namespace Sys2Proof.Machine

/-! ### The cursor and the output only move on -/

/-- The cursor lies inside an input whose bits a 32-bit cursor counts, and the reset input is low: what `Inv` gives of a
running command, and every primitive keeps. -/
structure StreamOk (s : State) : Prop where
  source : s.lat.srcLen.toNat ≤ Config.srcLenMax
  cursor : s.p.toNat ≤ inputBits s
  resetLow : s.resetIn = false

/-- `t` follows `s` in a token: the cursor and the output stand or move on, and memory changes at new output bytes
only. -/
structure Appends (s t : State) : Prop where
  ok : StreamOk t
  lat : t.lat = s.lat
  cursor : s.p.toNat ≤ t.p.toNat
  output : s.out.toNat ≤ t.out.toNat
  memory : OnlyOutputBytes s t s.out.toNat t.out.toNat

/-- The relation that the pieces of a token keep: `Appends`, from a state with `StreamOk`. -/
def StreamsOn (s t : State) : Prop := StreamOk s → Appends s t

/-- The fields that `Appends` speaks of. -/
def State.stream (s : State) : Word × Word × Memory × Latched × Bool := (s.p, s.out, s.mem, s.lat, s.resetIn)

theorem StreamsOn.of_stream_eq {s t : State} (h : t.stream = s.stream) : StreamsOn s t := by
  intro hs
  simp only [State.stream, Prod.mk.injEq] at h
  obtain ⟨hp, hout, hmem, hlat, hreset⟩ := h
  exact
    { ok := ⟨hlat ▸ hs.source, by rw [inputBits, hp, hlat]; exact hs.cursor, hreset.trans hs.resetLow⟩
      lat := hlat
      cursor := hp ▸ Nat.le_refl _
      output := hout ▸ Nat.le_refl _
      memory := fun a _ => by rw [hmem] }

theorem OnlyOutputBytes.trans {a b c : State} {lo mid hi : Nat} (h : OnlyOutputBytes a b lo mid)
    (h' : OnlyOutputBytes b c mid hi) (hlat : b.lat = a.lat) (hlo : lo ≤ mid) (hhi : mid ≤ hi) :
    OnlyOutputBytes a c lo hi := by
  intro x hx
  have hdest : ∀ k, destAddr b k = destAddr a k := fun k => by simp only [destAddr, hlat]
  rw [h' x fun k hk hk' => hdest k ▸ hx k (hlo.trans hk) hk', h x fun k hk hk' => hx k hk (hk'.trans_le hhi)]

theorem StreamsOn.trans {a b c : State} (h : StreamsOn a b) (h' : StreamsOn b c) : StreamsOn a c := by
  intro ha
  have hab := h ha
  have hbc := h' hab.ok
  exact
    { ok := hbc.ok
      lat := hbc.lat.trans hab.lat
      cursor := hab.cursor.trans hbc.cursor
      output := hab.output.trans hbc.output
      memory := hab.memory.trans hbc.memory hab.lat hab.output hbc.output }

theorem streamsOn_bind {α β : Type} {m : Act α} {f : α → Act β} (hm : m.Within StreamsOn)
    (hf : ∀ a, (f a).Within StreamsOn) : (m.bind f).Within StreamsOn :=
  Within.bind (R := StreamsOn) (fun h h' => h.trans h') hm hf

theorem streamsOn_pure {α : Type} (a : α) : (Act.pure a).Within StreamsOn :=
  Within.pure (fun _ => .of_stream_eq rfl) a

theorem engineSet_streamsOn {f : State → State} (h : ∀ s, (f s).stream = s.stream) :
    (engineSet f).Within StreamsOn := fun s => .of_stream_eq (h s)

/-! ### The primitives -/

theorem boundary_streamsOn : boundary.Within StreamsOn := by
  intro s
  rcases boundary_cases s with h | h | ⟨-, h⟩ <;> rw [h] <;> exact .of_stream_eq rfl

/-- The cursor moved on inside the input. -/
theorem setP_streamsOn {s : State} {q : Nat} (hp : s.p.toNat ≤ q) (hq : q ≤ inputBits s) :
    StreamsOn s (s.setP q) := by
  intro hs
  have hsrc := hs.source
  simp only [inputBits, Config.srcLenMax] at hq hsrc
  have hqp : (s.setP q).p.toNat = q := setP_toNat (by omega)
  exact
    { ok := ⟨hs.source, hqp.trans_le hq, hs.resetLow⟩
      lat := rfl
      cursor := hp.trans_eq hqp.symm
      output := Nat.le_refl _
      memory := fun _ _ => rfl }

theorem readBits_streamsOn (n : Nat) : (readBits n).Within StreamsOn := by
  refine streamsOn_bind boundary_streamsOn fun _ s => ?_
  split
  · exact .of_stream_eq rfl
  · exact setP_streamsOn (by omega) (by omega)

/-- The input ends on a byte boundary, so aligning does not pass its end. -/
theorem alignToByte_streamsOn : alignToByte.Within StreamsOn := by
  refine streamsOn_bind boundary_streamsOn fun _ s hs => ?_
  have hc := hs.cursor
  exact setP_streamsOn (by omega) (by simp only [inputBits] at hc ⊢; omega) hs

theorem decodeSym_streamsOn (t : CodeTable) : (decodeSym t).Within StreamsOn := by
  refine streamsOn_bind boundary_streamsOn fun _ s => ?_
  unfold takeSymbol
  split
  · exact .of_stream_eq rfl
  · split
    · exact .of_stream_eq rfl
    · exact setP_streamsOn (by omega) (by omega)

theorem readFields_streamsOn (n k : Nat) : (readFields n k).Within StreamsOn := by
  induction k with
  | zero => exact streamsOn_pure _
  | succ k ih => exact streamsOn_bind (readBits_streamsOn n) fun _ => streamsOn_bind ih fun _ => streamsOn_pure _

theorem outByte_streamsOn (k : Nat) : (outByte k).Within StreamsOn :=
  streamsOn_bind boundary_streamsOn fun _ _ => .of_stream_eq rfl

/-- An output byte below the capacity is written at the address of output byte `out`. -/
theorem emitted_streamsOn {s : State} (h : s.out.toNat < s.lat.dstCap.toNat) (b : Byte) :
    StreamsOn s (s.emitted b) := by
  intro hs
  have hout := emitted_out_toNat h b
  exact
    { ok := ⟨hs.source, hs.cursor, hs.resetLow⟩
      lat := rfl
      cursor := Nat.le_refl _
      output := by omega
      memory := fun a ha => memRead_memWrite_other b (ha s.out.toNat (Nat.le_refl _) (by omega)) }

/-- With the reset input low, an engine stopped at an `Emit` writes nothing. -/
theorem emitBoundary_streamsOn : emitBoundary.Within StreamsOn := by
  intro s hs
  rw [emitBoundary_low hs.resetLow]
  exact boundary_streamsOn s hs

theorem emit_streamsOn (b : Byte) : (emit b).Within StreamsOn := by
  refine streamsOn_bind emitBoundary_streamsOn fun _ s => ?_
  split
  · exact .of_stream_eq rfl
  · exact emitted_streamsOn (by omega) b

/-! ### The loops -/

theorem emitBytes_streamsOn (bytes : List Byte) : (emitBytes bytes).Within StreamsOn := by
  induction bytes with
  | nil => exact streamsOn_pure _
  | cons b bytes ih => exact streamsOn_bind (emit_streamsOn b) fun _ => ih

theorem copyStored_streamsOn (n : Nat) : (copyStored n).Within StreamsOn := by
  induction n with
  | zero => exact streamsOn_pure _
  | succ n ih => exact streamsOn_bind (readBits_streamsOn 8) fun _ => streamsOn_bind (emit_streamsOn _) fun _ => ih

theorem copyMatch_streamsOn (dist n : Nat) : (copyMatch dist n).Within StreamsOn := by
  induction n with
  | zero => exact streamsOn_pure _
  | succ n ih =>
    exact fun s => streamsOn_bind (outByte_streamsOn _) (fun b => streamsOn_bind (emit_streamsOn b) fun _ => ih) s

theorem neighbour_streamsOn (inside : Bool) (k : Nat) : (neighbour inside k).Within StreamsOn := by
  cases inside with
  | false => exact streamsOn_pure _
  | true => exact streamsOn_bind (outByte_streamsOn k) fun _ => streamsOn_pure _

theorem neighbours_streamsOn (i rowstart : Nat) : (neighbours i rowstart).Within StreamsOn := fun s =>
  streamsOn_bind (neighbour_streamsOn _ _) (fun _ => streamsOn_bind (neighbour_streamsOn _ _) fun _ =>
    streamsOn_bind (neighbour_streamsOn _ _) fun _ => streamsOn_pure _) s

theorem unfilterBytes_streamsOn (pred : Nat → Nat → Nat → Nat) (rowstart i n : Nat) :
    (unfilterBytes pred rowstart i n).Within StreamsOn := by
  induction n generalizing i with
  | zero => exact streamsOn_pure _
  | succ n ih =>
    exact streamsOn_bind (readBits_streamsOn 8) fun _ => streamsOn_bind (neighbours_streamsOn _ _) fun _ =>
      streamsOn_bind (emit_streamsOn _) fun _ => ih _

/-! ### The token -/

theorem fetchValue_streamsOn (f : Format) : (fetchValue f).Within StreamsOn := by
  cases f with
  | cmd | status => exact streamsOn_pure _
  | zhdr | bhdr =>
    exact streamsOn_bind (readBits_streamsOn _) fun _ => streamsOn_bind (readBits_streamsOn _) fun _ => streamsOn_pure _
  | stored =>
    exact streamsOn_bind alignToByte_streamsOn fun _ => streamsOn_bind (readBits_streamsOn _) fun _ =>
      streamsOn_bind (readBits_streamsOn _) fun _ => streamsOn_pure _
  | dynHdr =>
    exact streamsOn_bind (readBits_streamsOn _) fun _ => streamsOn_bind (readBits_streamsOn _) fun _ =>
      streamsOn_bind (readBits_streamsOn _) fun _ => streamsOn_pure _
  | clSym | litLen | dist => exact fun s => decodeSym_streamsOn _ s
  | trailer =>
    exact streamsOn_bind alignToByte_streamsOn fun _ => streamsOn_bind (readBits_streamsOn _) fun _ =>
      streamsOn_bind (readBits_streamsOn _) fun _ => streamsOn_bind (readBits_streamsOn _) fun _ =>
        streamsOn_bind (readBits_streamsOn _) fun _ => streamsOn_pure _
  | filterRow | codeLen => exact readBits_streamsOn _

theorem readCodeLengthCode_streamsOn (n : Nat) : (readCodeLengthCode n).Within StreamsOn := by
  refine streamsOn_bind (readFields_streamsOn 3 n) fun values s => ?_
  split <;> exact .of_stream_eq rfl

theorem clNext_streamsOn : clNext.Within StreamsOn := by
  intro s
  unfold clNext buildDynamicTrees
  split
  · exact .of_stream_eq rfl
  · split
    · exact .of_stream_eq rfl
    · split
      · exact .of_stream_eq rfl
      · split <;> exact .of_stream_eq rfl

/-- A run of lengths is written, and the sequence goes on or ends. -/
theorem appendLens_clNext_streamsOn (r : Nat) (v : BitVec 4) :
    ((engineSet (State.appendLens r v)).bind fun _ => clNext).Within StreamsOn :=
  streamsOn_bind (engineSet_streamsOn fun _ => rfl) fun _ => clNext_streamsOn

theorem clRun_streamsOn (r : Nat) (v : BitVec 4) : (clRun r v).Within StreamsOn := by
  intro s
  unfold clRun
  split
  · exact .of_stream_eq rfl
  · exact appendLens_clNext_streamsOn r v s

theorem distSymbol_streamsOn (d : Nat) : (distSymbol d).Within StreamsOn := by
  refine streamsOn_bind (readBits_streamsOn _) fun x s => ?_
  split
  · exact .of_stream_eq rfl
  · exact streamsOn_bind (copyMatch_streamsOn _ _)
      (fun _ => engineSet_streamsOn (f := State.setPhase _) fun _ => rfl) s

theorem rowEnd_stream (s : State) : s.rowEnd.stream = s.stream := by
  unfold State.rowEnd
  split <;> rfl

theorem buildCode_streamsOn : buildCode.Within StreamsOn := by
  intro s
  unfold buildCode
  dsimp only
  split
  · exact .of_stream_eq rfl
  · refine StreamsOn.trans ?_ (streamsOn_bind (emitBytes_streamsOn _)
      (fun _ => engineSet_streamsOn (f := State.complete _) fun _ => rfl) _)
    exact .of_stream_eq rfl

theorem TokenBody.streamsOn {ph : Phase} {m : Act Unit} (h : TokenBody ph m) : m.Within StreamsOn := by
  cases h with
  | refuse => exact fun _ => .of_stream_eq rfl
  | zlibHeader | blockStored | blockFixed | blockDynamic | endOfBlock => exact engineSet_streamsOn fun _ => rfl
  | blockReserved => exact fun _ => .of_stream_eq rfl
  | storedBlock n => exact streamsOn_bind (copyStored_streamsOn n) fun _ => engineSet_streamsOn fun _ => rfl
  | dynHeader _ _ n => exact streamsOn_bind (readCodeLengthCode_streamsOn n) fun _ => engineSet_streamsOn fun _ => rfl
  | clDirect c => exact appendLens_clNext_streamsOn 1 c
  | clRepPrev => exact streamsOn_bind (readBits_streamsOn 2) fun x s => clRun_streamsOn _ _ s
  | clRepZero n k => exact streamsOn_bind (readBits_streamsOn n) fun x => clRun_streamsOn _ _
  | literal b => exact emit_streamsOn b
  | length k => exact streamsOn_bind (readBits_streamsOn _) fun _ => engineSet_streamsOn fun _ => rfl
  | distance d => exact distSymbol_streamsOn d
  | trailer a =>
    refine streamsOn_bind (engineSet_streamsOn fun _ => rfl) fun _ s => ?_
    split <;> exact .of_stream_eq rfl
  | filterRow pred =>
    exact fun s => streamsOn_bind (unfilterBytes_streamsOn pred _ _ _) (fun _ => engineSet_streamsOn rowEnd_stream) s
  | codeLength len =>
    intro s
    dsimp only
    split
    · exact .of_stream_eq rfl
    · refine StreamsOn.trans ?_ (buildCode_streamsOn _)
      exact .of_stream_eq rfl

/-- Completing a command moves neither the cursor nor the output. -/
theorem tokenEnd_streamsOn {m : Act Unit} (hm : m.Within StreamsOn) {s t : State} (h : tokenEnd (m s) = .next t) :
    StreamsOn s t := by
  have hs := hm s
  cases hr : m s with
  | ok a u =>
    rw [hr] at h hs
    cases h
    exact hs
  | raised e u =>
    rw [hr] at h hs
    cases h
    exact StreamsOn.trans hs (.of_stream_eq rfl)

theorem engineStep_streamsOn {s t : State} (h : engineStep s = .next t) : StreamsOn s t := by
  obtain ⟨f, -, ⟨e, u, hv, rfl⟩ | ⟨v, u, m, hv, hm, ht⟩⟩ := engineStep_next h
  all_goals
    have hu := fetchValue_streamsOn f s
    rw [hv] at hu
  · exact StreamsOn.trans hu (.of_stream_eq rfl)
  · exact StreamsOn.trans hu (tokenEnd_streamsOn hm.streamsOn ht.symm)

theorem Inv.streamOk {s : State} (h : Inv s) (hb : s.busy = true) : StreamOk s := by
  obtain ⟨-, hlen, -⟩ := checkParameters_none (h.parameters hb)
  exact ⟨hlen, h.cursor, h.resetLow⟩

/-- Settles O51: the fetch and every token's body only move the cursor and the output on, a byte is written at output
byte `out` alone, and the bound of the output is the invariant's, which the step keeps. -/
theorem engineWritesOnlyNewOutput : Obligations.EngineWritesOnlyNewOutput := by
  intro s t h hb ht
  have hs : Appends s t := engineStep_streamsOn ht (h.streamOk hb)
  have hi : Inv t := engineTick_inv h ((if_pos hb).trans ht)
  exact ⟨hs.output, hs.lat ▸ hi.output, hs.cursor, hs.memory⟩

/-! ### The host accesses that have no step (R61, R318) -/

/-- An access that meets the register block and is not an aligned access of four bytes reaches no register (R61). -/
theorem busTarget_registerAccess {pl : Config.Platform} {a n : Nat}
    (hm : rangesMeet a n pl.regBase.toNat Config.regBlockSize = true)
    (h : n ≠ 4 ∨ a < pl.regBase.toNat ∨ (a - pl.regBase.toNat) % 4 ≠ 0) :
    busTarget pl a n = .stuck .registerAccess := by
  rw [busTarget, if_pos hm]
  by_cases hc : n = 4 ∧ pl.regBase.toNat ≤ a
  · have hoff : (a - pl.regBase.toNat) % 4 ≠ 0 := by omega
    rw [if_pos hc, regAt, if_neg hoff]
  · rw [if_neg hc]

/-- An access to backed memory outside the register block. -/
theorem busTarget_backed {pl : Config.Platform} {a n : Nat}
    (hm : rangesMeet a n pl.regBase.toNat Config.regBlockSize = false) (hb : backed pl a n = true) :
    busTarget pl a n = .memory := by
  simp only [busTarget, hm, hb, Bool.false_eq_true, if_false, if_true]

theorem hostMemWrite_hostDuty {s : State} {a : Nat} {bytes : List Byte} (hb : s.busy = true)
    (h : meetsInput s a bytes.length = true ∨ meetsDest s a bytes.length = true) :
    hostMemWrite a bytes s = .fault .hostDuty :=
  if_pos (by rw [Bool.and_eq_true, Bool.or_eq_true]; exact ⟨hb, h⟩)

theorem hostMemRead_hostDuty {s : State} {a n : Nat} (hb : s.busy = true) (h : meetsDest s a n = true) :
    hostMemRead a n s = .fault .hostDuty :=
  if_pos (by rw [Bool.and_eq_true]; exact ⟨hb, h⟩)

/-- Settles O58: the bus target decides the register block's accesses, and the memory accesses test the duties. -/
theorem hostStuckOnForbiddenAccess : Obligations.HostStuckOnForbiddenAccess := by
  intro s rest a
  refine ⟨fun bytes hs hm h => ?_, fun n hs hm h => ?_, fun bytes hs hm hk hb h => ?_, fun n hs hm hk hb h => ?_⟩
  · simp only [step_write hs, hostWrite, busTarget_registerAccess hm h]
  · simp only [step_read hs, hostRead, busTarget_registerAccess hm h]
  · simp only [step_write hs, hostWrite, busTarget_backed hm hk]
    exact hostMemWrite_hostDuty (s := { s with host := rest }) hb h
  · simp only [step_read hs, hostRead, busTarget_backed hm hk]
    exact hostMemRead_hostDuty (s := { s with host := rest }) hb h

end Sys2Proof.Machine
end

section
/-! The encoding family, first part: the encoder and the decoder are inverse to each other (O39, O40), and the words of
the spec (O42). -/

namespace Sys2Proof.Machine

/-! ### Values of fields -/

theorem decode_lt {f : Format} {v : Nat} {i : Instr} (h : decode f v = .ok i) : v < 2 ^ f.bits := by
  unfold decode at h
  split at h
  · cases h
  · exact Nat.not_le.1 ‹_›

/-- Bit `k` of a value, as the operand that a CTRL, STATUS or block-header word gives it. -/
theorem bitAt_toNat_eq (v k : Nat) : (bitAt v k).toNat = v / 2 ^ k % 2 := by
  rw [bitAt]
  rcases Nat.mod_two_eq_zero_or_one (v / 2 ^ k) with h | h <;> simp [h]

theorem bitAt_of_eq {v k : Nat} {b : Bool} (h : v / 2 ^ k % 2 = b.toNat) : bitAt v k = b := by
  rw [bitAt, h]
  cases b <;> rfl

/-- The field of a value that holds an operand. -/
theorem ofNat_eq_of_mod {n v : Nat} {x : BitVec n} (h : v % 2 ^ n = x.toNat) : BitVec.ofNat n v = x :=
  BitVec.eq_of_toNat_eq (by rw [BitVec.toNat_ofNat, h])

/-! ### Decoding what was encoded -/

theorem decode_ctrlWord (abort ie : Bool) {op : Nat} (h : op < 16) :
    decode .cmd (ctrlWord abort ie op) = symbolAt (commandOf abort ie) op := by
  have ha := abort.toNat_lt
  have hi := ie.toNat_lt
  have h0 : bitAt (ctrlWord abort ie op) 0 = true := bitAt_of_eq (by simp only [ctrlWord, Bool.toNat_true]; omega)
  have h1 : bitAt (ctrlWord abort ie op) 1 = abort := bitAt_of_eq (by simp only [ctrlWord]; omega)
  have h2 : bitAt (ctrlWord abort ie op) 2 = ie := bitAt_of_eq (by simp only [ctrlWord]; omega)
  have hop : ctrlWord abort ie op / 16 % 16 = op := by simp only [ctrlWord]; omega
  have hv : ¬2 ^ Format.cmd.bits ≤ ctrlWord abort ie op := by simp only [ctrlWord, Format.bits]; omega
  rw [decode, if_neg hv]
  simp only [decodeCmd, h0, h1, h2, hop, if_true]

theorem decode_abortWord (ie : Bool) (op : BitVec 4) :
    decode .cmd (2 + 4 * ie.toNat + 16 * op.toNat) = .ok (.abort ie op) := by
  have hi := ie.toNat_lt
  have ho := op.isLt
  have h0 : bitAt (2 + 4 * ie.toNat + 16 * op.toNat) 0 = false := bitAt_of_eq (by simp only [Bool.toNat_false]; omega)
  have h1 : bitAt (2 + 4 * ie.toNat + 16 * op.toNat) 1 = true := bitAt_of_eq (by simp only [Bool.toNat_true]; omega)
  have h2 : bitAt (2 + 4 * ie.toNat + 16 * op.toNat) 2 = ie := bitAt_of_eq (by omega)
  have hop : BitVec.ofNat 4 ((2 + 4 * ie.toNat + 16 * op.toNat) / 16) = op := ofNat_eq_of_mod (by omega)
  have hv : ¬2 ^ Format.cmd.bits ≤ 2 + 4 * ie.toNat + 16 * op.toNat := by simp only [Format.bits]; omega
  rw [decode, if_neg hv]
  simp only [decodeCmd, h0, h1, h2, hop, Bool.false_eq_true, if_false, if_true]

theorem decode_zhdr_encoded (cmf flg : Byte) :
    decode .zhdr (cmf.toNat * 256 + flg.toNat) = .ok (.zhdr cmf flg) := by
  have hc := cmf.isLt
  have hf := flg.isLt
  have hv : ¬2 ^ Format.zhdr.bits ≤ cmf.toNat * 256 + flg.toNat := by simp only [Format.bits]; omega
  have h1 : BitVec.ofNat 8 ((cmf.toNat * 256 + flg.toNat) / 256) = cmf := ofNat_eq_of_mod (by omega)
  have h2 : BitVec.ofNat 8 (cmf.toNat * 256 + flg.toNat) = flg := ofNat_eq_of_mod (by omega)
  rw [decode, if_neg hv]
  simp only [h1, h2]

theorem decode_stored_encoded (len nlen : BitVec 16) :
    decode .stored (len.toNat + 65536 * nlen.toNat) = .ok (.storedLen len nlen) := by
  have hl := len.isLt
  have hn := nlen.isLt
  have hv : ¬2 ^ Format.stored.bits ≤ len.toNat + 65536 * nlen.toNat := by simp only [Format.bits]; omega
  have h1 : BitVec.ofNat 16 (len.toNat + 65536 * nlen.toNat) = len := ofNat_eq_of_mod (by omega)
  have h2 : BitVec.ofNat 16 ((len.toNat + 65536 * nlen.toNat) / 65536) = nlen := ofNat_eq_of_mod (by omega)
  rw [decode, if_neg hv]
  simp only [h1, h2]

theorem decode_dynHdr_encoded (hlit hdist : BitVec 5) (hclen : BitVec 4) :
    decode .dynHdr (hlit.toNat + 32 * hdist.toNat + 1024 * hclen.toNat) = .ok (.dynHdr hlit hdist hclen) := by
  generalize hv : hlit.toNat + 32 * hdist.toNat + 1024 * hclen.toNat = v
  have hl := hlit.isLt
  have hd := hdist.isLt
  have hc := hclen.isLt
  have hlt : ¬2 ^ Format.dynHdr.bits ≤ v := by simp only [Format.bits]; omega
  have h1 : BitVec.ofNat 5 v = hlit := ofNat_eq_of_mod (by omega)
  have h2 : BitVec.ofNat 5 (v / 32) = hdist := ofNat_eq_of_mod (by omega)
  have h3 : BitVec.ofNat 4 (v / 1024) = hclen := ofNat_eq_of_mod (by omega)
  rw [decode, if_neg hlt]
  simp only [h1, h2, h3]

theorem decode_lit_encoded (b : Byte) : decode .litLen b.toNat = .ok (.lit b) := by
  have hb : b.toNat < 256 := b.isLt
  have hlt : ¬2 ^ Format.litLen.bits ≤ b.toNat := by simp only [Format.bits]; omega
  rw [decode, if_neg hlt]
  simp only [decodeLitLen, if_pos hb, BitVec.ofNat_toNat, BitVec.setWidth_eq]

theorem decode_trailer_encoded (a : Word) : decode .trailer a.toNat = .ok (.trailer a) := by
  have hlt : ¬2 ^ Format.trailer.bits ≤ a.toNat := Nat.not_le.2 a.isLt
  rw [decode, if_neg hlt, BitVec.ofNat_toNat, BitVec.setWidth_eq]

/-- The free bits of a value, below bits that the row fixes (R89, R103). -/
theorem ofNat_add_toNat {n k : Nat} (low : BitVec n) (h : k % 2 ^ n = 0) : BitVec.ofNat n (k + low.toNat) = low :=
  ofNat_eq_of_mod (by rw [Nat.add_mod, h, Nat.zero_add, Nat.mod_mod, Nat.mod_eq_of_lt low.isLt])

theorem decode_filterRow {v : Nat} (h : v < 256) : decode .filterRow v = .ok (decodeFilter v) :=
  if_neg (Nat.not_le.2 h)

theorem decode_codeLen {v : Nat} (h : v < 256) : decode .codeLen v = .ok (decodeCodeLen v) :=
  if_neg (Nat.not_le.2 h)

theorem decode_hblen (len : BitVec 4) : decode .codeLen len.toNat = .ok (.hblen len) := by
  have hl := len.isLt
  simp (disch := omega) only [decode_codeLen, decodeCodeLen, if_pos, BitVec.ofNat_toNat, BitVec.setWidth_eq]

/-- Settles O39, by the instruction: the words of the commands and the fields with operands have a lemma each, and what
has at most flags for operands is a finite check. -/
theorem decodeOfEncode : Obligations.DecodeOfEncode := by
  intro i
  cases i
  case inflate abort ie | unfilter abort ie | huffBuild abort ie | cmdReservedOp0 abort ie
      | cmdReservedOp4 abort ie | cmdReservedOp5 abort ie | cmdReservedOp6 abort ie | cmdReservedOp7 abort ie
      | cmdReservedOp8 abort ie | cmdReservedOp9 abort ie | cmdReservedOp10 abort ie | cmdReservedOp11 abort ie
      | cmdReservedOp12 abort ie | cmdReservedOp13 abort ie | cmdReservedOp14 abort ie
      | cmdReservedOp15 abort ie => exact decode_ctrlWord abort ie (by decide)
  case abort ie op => exact decode_abortWord ie op
  case statusClear done err => cases done <;> cases err <;> rfl
  case zhdr cmf flg => exact decode_zhdr_encoded cmf flg
  case blockStored final | blockFixed final | blockDynamic final | blockReserved final => cases final <;> rfl
  case storedLen len nlen => exact decode_stored_encoded len nlen
  case dynHdr hlit hdist hclen => exact decode_dynHdr_encoded hlit hdist hclen
  case lit b => exact decode_lit_encoded b
  case trailer a => exact decode_trailer_encoded a
  case filterReserved8to15 low | filterReserved16to31 low | filterReserved32to63 low
      | filterReserved64to127 low | filterReserved128to255 low =>
    have h := low.isLt
    show decode .filterRow (_ + low.toNat) = _
    simp (disch := omega) only [decode_filterRow, decodeFilter, if_neg, if_pos, ofNat_add_toNat]
  case hblen len => exact decode_hblen len
  case hblenInvalid16to31 low | hblenInvalid32to63 low | hblenInvalid64to127 low
      | hblenInvalid128to255 low =>
    have h := low.isLt
    show decode .codeLen (_ + low.toNat) = _
    simp (disch := omega) only [decode_codeLen, decodeCodeLen, if_neg, if_pos, ofNat_add_toNat]
  all_goals decide

/-! ### Encoding what was decoded -/

/-- An alphabet whose listed symbols have the encodings `g 0`, `g 1`, … encodes symbol `k` as `g k`. -/
theorem encode_of_symbolAt {l : List Instr} {n : Nat} {g : Nat → Format × Nat}
    (hl : l.map encode = (List.range n).map g) {k : Nat} {i : Instr} (h : symbolAt l k = .ok i) : encode i = g k := by
  unfold symbolAt at h
  split at h
  · rename_i j hj
    cases h
    have hk : (l.map encode)[k]? = some (encode i) := by rw [List.getElem?_map, hj, Option.map_some]
    rw [hl, List.getElem?_map, Option.map_eq_some_iff] at hk
    obtain ⟨m, hm, hi⟩ := hk
    rw [List.getElem?_eq_some_iff] at hm
    obtain ⟨hkn, rfl⟩ := hm
    rw [← hi, List.getElem_range]
  · cases h

theorem commandOf_map_encode (abort ie : Bool) : (commandOf abort ie).map encode =
    (List.range 16).map fun op => (.cmd, ctrlWord abort ie op) := rfl

theorem clSymbols_map_encode : clSymbols.map encode = (List.range 19).map fun k => (.clSym, k) := rfl

theorem lengthSymbols_map_encode : lengthSymbols.map encode = (List.range 31).map fun k => (.litLen, 257 + k) := rfl

theorem distanceSymbols_map_encode : distanceSymbols.map encode = (List.range 32).map fun d => (.dist, d) := rfl

/-- What both instructions of a choice encode to, the choice encodes to. -/
theorem encode_ite {c : Prop} [Decidable c] {i j : Instr} {x : Format × Nat} (hi : c → encode i = x)
    (hj : ¬c → encode j = x) : encode (if c then i else j) = x := by
  split
  · exact hi ‹_›
  · exact hj ‹_›

/-- A value whose free bits were cut out and put back. -/
theorem encoded_free {f : Format} {n k v : Nat} (h : k + v % 2 ^ n = v) :
    (f, k + (BitVec.ofNat n v).toNat) = (f, v) := by
  rw [BitVec.toNat_ofNat, h]

theorem encode_decodeBlock : ∀ v < 8, encode (decodeBlock v) = (.bhdr, v) := by decide

theorem encode_decodeFilter {v : Nat} (h : v < 256) : encode (decodeFilter v) = (.filterRow, v) := by
  unfold decodeFilter
  iterate 8 refine encode_ite (fun hv => hv ▸ rfl) fun _ => ?_
  iterate 4 refine encode_ite (fun _ => encoded_free (by omega)) fun _ => ?_
  exact encoded_free (by omega)

theorem encode_decodeCodeLen {v : Nat} (h : v < 256) : encode (decodeCodeLen v) = (.codeLen, v) := by
  unfold decodeCodeLen
  refine encode_ite (fun hv => congrArg (Prod.mk _) (Nat.mod_eq_of_lt hv)) fun _ => ?_
  iterate 3 refine encode_ite (fun _ => encoded_free (by omega)) fun _ => ?_
  exact encoded_free (by omega)

theorem encode_of_decodeLitLen {v : Nat} {i : Instr} (h : decodeLitLen v = .ok i) : encode i = (.litLen, v) := by
  unfold decodeLitLen at h
  split_ifs at h with hl he
  · cases h
    exact congrArg (Prod.mk _) (Nat.mod_eq_of_lt hl)
  · cases h
    rw [he]
    rfl
  · rw [encode_of_symbolAt lengthSymbols_map_encode h, Nat.add_sub_cancel' (by omega)]

theorem encode_of_decodeCmd {v : Nat} {i : Instr} (h : decodeCmd v = .ok i) :
    encode i = (.cmd, v % 8 + 16 * (v / 16 % 16)) := by
  have hb := bitAt_toNat_eq v
  unfold decodeCmd at h
  split_ifs at h with h0 h1
  · rw [encode_of_symbolAt (commandOf_map_encode _ _) h, ctrlWord, hb, hb]
    have h0 : 1 = v / 2 ^ 0 % 2 := (congrArg Bool.toNat h0).symm.trans (hb 0)
    congr 1
    omega
  · cases h
    have h0 : 0 = v / 2 ^ 0 % 2 := (congrArg Bool.toNat (Bool.eq_false_iff.2 h0)).symm.trans (hb 0)
    have h1 : 1 = v / 2 ^ 1 % 2 := (congrArg Bool.toNat h1).symm.trans (hb 1)
    have ho : (BitVec.ofNat 4 (v / 16)).toNat = v / 16 % 16 := BitVec.toNat_ofNat ..
    show (Format.cmd, 2 + 4 * (bitAt v 2).toNat + 16 * (BitVec.ofNat 4 (v / 16)).toNat) = _
    rw [hb, ho]
    congr 1
    omega

theorem encode_statusClear_bits (v : Nat) :
    encode (.statusClear (bitAt v 1) (bitAt v 2)) = (.status, 2 * (v / 2 % 4)) := by
  have h : 2 * (bitAt v 1).toNat + 4 * (bitAt v 2).toNat = 2 * (v / 2 % 4) := by
    rw [bitAt_toNat_eq, bitAt_toNat_eq]
    omega
  exact congrArg (Prod.mk _) h

theorem encode_zhdr_fields {v : Nat} (hv : v < 2 ^ 16) :
    encode (.zhdr (BitVec.ofNat 8 (v / 256)) (BitVec.ofNat 8 v)) = (.zhdr, v) := by
  have h : (BitVec.ofNat 8 (v / 256)).toNat * 256 + (BitVec.ofNat 8 v).toNat = v := by
    rw [BitVec.toNat_ofNat, BitVec.toNat_ofNat]
    omega
  exact congrArg (Prod.mk _) h

theorem encode_storedLen_fields {v : Nat} (hv : v < 2 ^ 32) :
    encode (.storedLen (BitVec.ofNat 16 v) (BitVec.ofNat 16 (v / 65536))) = (.stored, v) := by
  have h : (BitVec.ofNat 16 v).toNat + 65536 * (BitVec.ofNat 16 (v / 65536)).toNat = v := by
    rw [BitVec.toNat_ofNat, BitVec.toNat_ofNat]
    omega
  exact congrArg (Prod.mk _) h

theorem encode_dynHdr_fields {v : Nat} (hv : v < 2 ^ 14) :
    encode (.dynHdr (BitVec.ofNat 5 v) (BitVec.ofNat 5 (v / 32)) (BitVec.ofNat 4 (v / 1024))) = (.dynHdr, v) := by
  have h : (BitVec.ofNat 5 v).toNat + 32 * (BitVec.ofNat 5 (v / 32)).toNat +
      1024 * (BitVec.ofNat 4 (v / 1024)).toNat = v := by
    rw [BitVec.toNat_ofNat, BitVec.toNat_ofNat, BitVec.toNat_ofNat]
    omega
  exact congrArg (Prod.mk _) h

/-- Settles O40, by the format: each decoder is inverted by a lemma of its own. -/
theorem decodedValueIsEncoded : Obligations.DecodedValueIsEncoded := by
  intro f v i h
  have hv := decode_lt h
  rw [decode.eq_def, if_neg (Nat.not_le.2 hv)] at h
  cases f with
  | cmd => exact encode_of_decodeCmd h
  | status => cases h; exact encode_statusClear_bits v
  | zhdr => cases h; exact encode_zhdr_fields hv
  | bhdr => cases h; exact encode_decodeBlock v hv
  | stored => cases h; exact encode_storedLen_fields hv
  | dynHdr => cases h; exact encode_dynHdr_fields hv
  | clSym => exact encode_of_symbolAt clSymbols_map_encode h
  | litLen => exact encode_of_decodeLitLen h
  | dist => exact encode_of_symbolAt distanceSymbols_map_encode h
  | trailer => cases h; exact congrArg (Prod.mk _) (Nat.mod_eq_of_lt hv)
  | filterRow => cases h; exact encode_decodeFilter hv
  | codeLen => cases h; exact encode_decodeCodeLen hv

/-- Settles O42: each word is evaluated. -/
theorem specWordsDecode : Obligations.SpecWordsDecode := by
  unfold Obligations.SpecWordsDecode
  decide

end Sys2Proof.Machine
end

section
/-! The encoding family, second part: the tables of operands (O11, O15, O23) and the engine's turn (O43). -/

namespace Sys2Proof.Machine

/-! ### The fixed codes (R94, R95, R144) -/

/-- A run of symbols of one length takes consecutive codes from the next code of that length on (R144). -/
theorem assignCodes_replicate_append {l : BitVec 4} (hl : l.toNat ≠ 0) (rest : List (BitVec 4)) (n : Nat) :
    ∀ next : List Nat, l.toNat < next.length → assignCodes (List.replicate n l ++ rest) next =
      (List.range n).map (next.getD l.toNat 0 + ·) ++
        assignCodes rest (next.set l.toNat (next.getD l.toNat 0 + n)) := by
  induction n with
  | zero =>
    intro next h
    simp [List.getD, h]
  | succ n ih =>
    intro next h
    have hg : (next.set l.toNat (next.getD l.toNat 0 + 1)).getD l.toNat 0 = next.getD l.toNat 0 + 1 := by
      simp [List.getD, h]
    rw [List.replicate_succ, List.cons_append, assignCodes, if_neg hl, ih _ (by rwa [List.length_set]), hg,
      List.set_set, List.range_succ_eq_map]
    simp only [List.map_cons, List.map_map, List.cons_append, Nat.add_zero, Nat.add_assoc, Nat.add_comm 1]
    rfl

/-- The first codes of the fixed literal/length code, by length (R94, R144). -/
theorem firstCode_fixedLitLen : (List.range (Config.maxBits + 1)).map (firstCode fixedLitLen) =
    [0, 0, 0, 0, 0, 0, 0, 0, 48, 400, 1024, 2048, 4096, 8192, 16384, 32768] := by
  decide +kernel

theorem firstCode_fixedDist : (List.range (Config.maxBits + 1)).map (firstCode fixedDist) =
    [0, 0, 0, 0, 0, 0, 64, 128, 256, 512, 1024, 2048, 4096, 8192, 16384, 32768] := by
  decide +kernel

theorem canonical_fixedLitLen : canonical fixedLitLen =
    (List.range 144).map (0x30 + ·) ++ ((List.range 112).map (0x190 + ·) ++
      ((List.range 24).map (0 + ·) ++ (List.range 8).map (0xC0 + ·))) := by
  rw [canonical, firstCode_fixedLitLen, fixedLitLen, List.append_assoc, List.append_assoc,
    ← List.append_nil (List.replicate 8 _)]
  iterate 4 rw [assignCodes_replicate_append (by decide) _ _ _ (by decide)]
  simp [assignCodes]

theorem canonical_fixedDist : canonical fixedDist = List.range 32 := by
  rw [canonical, firstCode_fixedDist, fixedDist, ← List.append_nil (List.replicate 32 _),
    assignCodes_replicate_append (by decide) _ _ _ (by decide)]
  simp [assignCodes]

theorem build_getElem? (lengths : List (BitVec 4)) (k : Nat) :
    (CodeTable.build lengths).lengths[k]? = lengths[k]? ∧
      (CodeTable.build lengths).codes[k]? = (canonical lengths)[k]?.map (BitVec.ofNat 15) :=
  ⟨rfl, List.getElem?_map⟩

/-- Entry `k` of a list that begins with `n` entries of one value. -/
theorem getElem?_replicate_append {α : Type} (n : Nat) (a : α) (rest : List α) (k : Nat) :
    (List.replicate n a ++ rest)[k]? = if k < n then some a else rest[k - n]? := by
  split <;> rename_i h
  · rw [List.getElem?_append_left (by rwa [List.length_replicate]), List.getElem?_replicate, if_pos h]
  · rw [List.getElem?_append_right (by rw [List.length_replicate]; omega), List.length_replicate]

/-- Entry `k` of a list that begins with the first `n` values of a function. -/
theorem getElem?_map_range_append {α : Type} (n : Nat) (f : Nat → α) (rest : List α) (k : Nat) :
    ((List.range n).map f ++ rest)[k]? = if k < n then some (f k) else rest[k - n]? := by
  split <;> rename_i h
  · rw [List.getElem?_append_left (by simpa using h), List.getElem?_map, List.getElem?_range h, Option.map_some]
  · rw [List.getElem?_append_right (by simpa using h), List.length_map, List.length_range]

/-- Entry `k` of the fixed literal/length code: its length and its code, by the four runs. -/
theorem fixedLitLen_getElem? (k : Nat) :
    fixedLitLen[k]? = (if k < 144 then some 8 else if k - 144 < 112 then some 9
      else if k - 144 - 112 < 24 then some 7 else if k - 144 - 112 - 24 < 8 then some 8 else none) ∧
    (canonical fixedLitLen)[k]? = (if k < 144 then some (0x30 + k) else if k - 144 < 112 then some (0x190 + (k - 144))
      else if k - 144 - 112 < 24 then some (0 + (k - 144 - 112))
      else if k - 144 - 112 - 24 < 8 then some (0xC0 + (k - 144 - 112 - 24)) else none) := by
  rw [canonical_fixedLitLen, fixedLitLen, List.append_assoc, List.append_assoc, ← List.append_nil (List.replicate 8 _),
    ← List.append_nil ((List.range 8).map _)]
  constructor
  · simp only [getElem?_replicate_append, List.getElem?_nil]
  · simp only [getElem?_map_range_append, List.getElem?_nil]

/-- Settles O11: the lengths and the codes are runs, listed by `fixedLitLen` and `canonical_fixedLitLen`. -/
theorem fixedCodesAreAsListed : Obligations.FixedCodesAreAsListed := by
  refine ⟨fun _ _ => ⟨_, rfl, rfl, rfl⟩, fun k => ?_⟩
  obtain ⟨hl, hc⟩ := build_getElem? fixedLitLen k
  obtain ⟨hd, he⟩ := build_getElem? fixedDist k
  obtain ⟨hfl, hfc⟩ := fixedLitLen_getElem? k
  rw [hl, hc, hd, he, hfl, hfc, canonical_fixedDist, fixedDist]
  refine ⟨fun h => ?_, fun ⟨h, h'⟩ => ?_, fun ⟨h, h'⟩ => ?_, fun ⟨h, h'⟩ => ?_, fun h => ?_⟩
  · simp only [h, if_true, Option.map_some, and_self]
  · have h1 : ¬k < 144 := by omega
    have h2 : k - 144 < 112 := by omega
    simp only [h1, h2, if_true, if_false, Option.map_some, and_self]
  · have h1 : ¬k < 144 := by omega
    have h2 : ¬k - 144 < 112 := by omega
    have h3 : k - 144 - 112 < 24 := by omega
    have hk : 0 + (k - 144 - 112) = k - 256 := by omega
    simp only [h1, h2, h3, hk, if_true, if_false, Option.map_some, and_self]
  · have h1 : ¬k < 144 := by omega
    have h2 : ¬k - 144 < 112 := by omega
    have h3 : ¬k - 144 - 112 < 24 := by omega
    have h4 : k - 144 - 112 - 24 < 8 := by omega
    have hk : k - 144 - 112 - 24 = k - 280 := by omega
    simp only [h1, h2, h3, h4, if_true, if_false, Option.map_some]
    exact ⟨trivial, by rw [hk]⟩
  · rw [List.getElem?_replicate, if_pos h, List.getElem?_range h, Option.map_some]
    exact ⟨rfl, rfl⟩

/-! ### The order of the code-length lengths (R92) -/

/-- Lengths given to symbols one after another, each pair a symbol and its length (R92). -/
def placeLengths (pairs : List (Nat × Nat)) (cl : List (BitVec 4)) : List (BitVec 4) :=
  pairs.foldl (fun cl x => cl.set x.1 (BitVec.ofNat 4 x.2)) cl

theorem codeLengthLengths_eq (values : List Nat) :
    codeLengthLengths values = placeLengths (clOrder.zip values) (List.replicate Config.nClen 0) := rfl

@[simp] theorem placeLengths_cons (x : Nat × Nat) (pairs : List (Nat × Nat)) (cl : List (BitVec 4)) :
    placeLengths (x :: pairs) cl = placeLengths pairs (cl.set x.1 (BitVec.ofNat 4 x.2)) := rfl

theorem getD_set_ne {l : List (BitVec 4)} {i j : Nat} (h : i ≠ j) (v : BitVec 4) :
    (l.set i v).getD j 0 = l.getD j 0 := by
  rw [List.getD, List.getElem?_set_ne h, List.getD]

/-- A symbol that no pair names keeps its length. -/
theorem placeLengths_getD_of_not_mem {j : Nat} (pairs : List (Nat × Nat)) :
    ∀ cl : List (BitVec 4), (∀ x ∈ pairs, x.1 ≠ j) → (placeLengths pairs cl).getD j 0 = cl.getD j 0 := by
  induction pairs with
  | nil => exact fun _ _ => rfl
  | cons x pairs ih =>
    intro cl h
    obtain ⟨hx, hp⟩ := List.forall_mem_cons.1 h
    rw [placeLengths_cons, ih _ hp, getD_set_ne hx]

/-- The symbols of a list without repetition take the values in order; those past the last value keep their length. -/
theorem placeLengths_zip_getD (keys : List Nat) :
    ∀ (values : List Nat) (cl : List (BitVec 4)) (i : Nat), keys.Nodup → (∀ k ∈ keys, k < cl.length) →
      i < keys.length → (placeLengths (keys.zip values) cl).getD (keys.getD i 0) 0 =
        (values[i]?.map (BitVec.ofNat 4)).getD (cl.getD (keys.getD i 0) 0) := by
  induction keys with
  | nil => exact fun _ _ i _ _ hi => absurd hi (Nat.not_lt_zero i)
  | cons key keys ih =>
    intro values cl i hk hcl hi
    obtain ⟨hkey, hks⟩ := List.nodup_cons.1 hk
    obtain ⟨hc, hcs⟩ := List.forall_mem_cons.1 hcl
    cases values with
    | nil => rfl
    | cons v values =>
      rw [List.zip_cons_cons, placeLengths_cons]
      cases i with
      | zero =>
        have hrest : ∀ x ∈ keys.zip values, x.1 ≠ key := fun x hx he => hkey (he ▸ (List.of_mem_zip hx).1)
        rw [List.getD_cons_zero, placeLengths_getD_of_not_mem _ _ hrest]
        simp [List.getD, hc]
      | succ i =>
        have hi : i < keys.length := Nat.lt_of_succ_lt_succ hi
        have hne : key ≠ keys.getD i 0 := fun he => hkey (by
          rw [he, List.getD, List.getElem?_eq_getElem hi]
          exact List.getElem_mem hi)
        rw [List.getD_cons_succ, List.getElem?_cons_succ, ih _ _ _ hks (by simpa using hcs) hi, getD_set_ne hne]

/-- Settles O15: `CLORDER` repeats no symbol, so each value stands where it was placed. -/
theorem codeLengthOrderPlacesValues : Obligations.CodeLengthOrderPlacesValues := by
  intro values _ hv i hi
  have h := placeLengths_zip_getD clOrder values (List.replicate Config.nClen 0) i (by decide) (by decide) hi
  refine (congrArg BitVec.toNat h).trans ?_
  by_cases hl : i < values.length
  · have hi := hv values[i] (List.getElem_mem hl)
    simp only [List.getD, List.getElem?_eq_getElem hl, Option.map_some, Option.getD_some, BitVec.toNat_ofNat]
    omega
  · have h0 : ∀ i < 19, (List.replicate Config.nClen (0 : BitVec 4)).getD (clOrder.getD i 0) 0 = 0 := by decide
    have hn : values[i]? = none := List.getElem?_eq_none (Nat.not_lt.1 hl)
    rw [h0 i hi, List.getD, hn]
    rfl

/-! ### The length symbols (R90, R223) -/

/-- Each length symbol runs `lengthSymbol` of its place in the table, which has its base and its extra bits. -/
theorem lengthTable_map : lengthTable.map (fun e => (exec e.1, e.2)) =
    (List.range 29).map fun k => ((fun s => tokenEnd (lengthSymbol k s)), lengthBaseOf k, lengthExtraOf k) := rfl

theorem exec_lengthTable {e : Instr × Nat × Nat} (h : e ∈ lengthTable) :
    ∃ k, (∀ s, exec e.1 s = tokenEnd (lengthSymbol k s)) ∧ lengthBaseOf k = e.2.1 ∧ lengthExtraOf k = e.2.2 := by
  have hm := List.mem_map_of_mem (f := fun e : Instr × Nat × Nat => (exec e.1, e.2)) h
  rw [lengthTable_map] at hm
  obtain ⟨k, -, hk⟩ := List.mem_map.1 hm
  simp only [Prod.ext_iff] at hk
  obtain ⟨hx, hb, he⟩ := hk
  exact ⟨k, fun s => (congrFun hx s).symm, hb, he⟩

/-- Settles O23: the extra bits are read, or are missing (R141). -/
theorem lengthSymbolGivesLength : Obligations.LengthSymbolGivesLength := by
  intro s hq e he
  obtain ⟨k, hx, hb, hn⟩ := exec_lengthTable he
  rw [hx, ← hb, ← hn]
  refine ⟨fun h => ?_, fun h => ?_⟩
  · rw [lengthSymbol, Act.bind_ok (readBits_ok hq h)]
    rfl
  · rw [lengthSymbol, Act.bind_raised (readBits_truncated hq h), tokenEnd_raised]

/-! ### The engine's turn (R105, R121, R292) -/

theorem engineTick_busy {s : State} (h : s.busy = true) : engineTick s = engineStep s := if_pos h

theorem engineTick_idle {s : State} (h : s.busy = false) : engineTick s = .next s := by
  rw [engineTick, h, if_neg Bool.false_ne_true]

/-- Settles O43: a step with no host action, or with one that waits, is the engine's turn. -/
theorem stepRunsFetchedToken : Obligations.StepRunsFetchedToken := by
  intro s rest k act
  refine ⟨fun hh hb => (step_idle hh).trans (engineTick_idle hb), fun f hb hf => ⟨fun v t i hv hi => ?_, ?_⟩⟩
  · have he : engineStep s = exec i t := engineStep_ok hf hv hi
    refine ⟨fun hh => ?_, ?_, he⟩
    · rw [step_idle hh, engineTick_busy hb, he]
    · exact (step_wait rfl).trans (engineTick_busy hb)
  · intro e t hv hh
    rw [step_idle hh, engineTick_busy hb, engineStep_raised hf hv]

end Sys2Proof.Machine
end

section
/-! The encoding family, third part: canonical codes (R144, R145, R152). The code of a symbol is the first code of its
length plus its place among the symbols of that length; codes that are not over-subscribed fit their lengths and
none begins another, so the search for a code finds the one symbol that has it. -/

namespace Sys2Proof.Machine

/-! ### First codes and the Kraft sum -/

theorem blCount_of_ne_zero (lengths : List (BitVec 4)) {len : Nat} (h : len ≠ 0) :
    blCount lengths len = lengths.countP fun l => l.toNat == len := if_neg h

theorem blCount_cons (l : BitVec 4) (lengths : List (BitVec 4)) (len : Nat) :
    blCount (l :: lengths) len = blCount lengths len + if len ≠ 0 ∧ l.toNat = len then 1 else 0 := by
  by_cases h : len = 0
  · simp [blCount, h]
  · simp [blCount, h, List.countP_cons]

/-- A symbol of length `l` moves the first code of every longer length on by the codes it covers there. -/
theorem firstCode_cons (l : BitVec 4) (lengths : List (BitVec 4)) (len : Nat) : firstCode (l :: lengths) len =
    firstCode lengths len + if l.toNat ≠ 0 ∧ l.toNat < len then 2 ^ (len - l.toNat) else 0 := by
  induction len with
  | zero => simp [firstCode]
  | succ n ih =>
    rw [firstCode, firstCode, ih, blCount_cons]
    by_cases h0 : l.toNat = 0
    · rw [if_neg (by omega), if_neg (by omega), if_neg (by omega)]
      omega
    rcases Nat.lt_trichotomy l.toNat n with h | h | h
    · have he : n + 1 - l.toNat = n - l.toNat + 1 := by omega
      rw [if_pos ⟨h0, h⟩, if_neg (by omega), if_pos ⟨h0, Nat.lt_succ_of_lt h⟩, he, pow_succ]
      ring
    · have he : n + 1 - l.toNat = 1 := by omega
      rw [if_neg (by omega), if_pos (by omega), if_pos (by omega), he]
      ring
    · rw [if_neg (by omega), if_neg (by omega), if_neg (by omega)]
      omega

/-- The Kraft sum counts the codes of the greatest length that are taken or covered (R145). -/
theorem kraft_eq (lengths : List (BitVec 4)) : kraft lengths = firstCode lengths 15 + blCount lengths 15 := by
  induction lengths with
  | nil => rfl
  | cons l lengths ih =>
    have hl := l.isLt
    rw [kraft, ih, firstCode_cons, blCount_cons, Config.maxBits]
    by_cases h0 : l.toNat = 0
    · rw [if_pos h0, if_neg (by omega), if_neg (by omega)]
      omega
    by_cases h : l.toNat = 15
    · rw [if_neg h0, if_neg (by omega), if_pos (by omega), h]
      omega
    · rw [if_neg h0, if_pos (by omega), if_neg (by omega)]
      omega

/-- The codes after the last one of a length, continued to a greater length, do not pass that length's first code. -/
theorem firstCode_le (lengths : List (BitVec 4)) (len k : Nat) :
    (firstCode lengths len + blCount lengths len) * 2 ^ (k + 1) ≤ firstCode lengths (len + k + 1) := by
  induction k with
  | zero => simp [firstCode]
  | succ k ih =>
    have : firstCode lengths (len + (k + 1) + 1) =
      (firstCode lengths (len + k + 1) + blCount lengths (len + k + 1)) * 2 := rfl
    rw [this, pow_succ, ← Nat.mul_assoc]
    omega

/-- Every length's codes fit it (R152). -/
theorem firstCode_add_blCount_le {lengths : List (BitVec 4)} (hk : kraft lengths ≤ 2 ^ 15) {len : Nat} (h : len ≤ 15) :
    firstCode lengths len + blCount lengths len ≤ 2 ^ len := by
  rw [kraft_eq] at hk
  rcases Nat.lt_or_eq_of_le h with h | rfl
  · obtain ⟨k, hk15⟩ : ∃ k, 15 = len + k + 1 := ⟨14 - len, by omega⟩
    have hle := firstCode_le lengths len k
    rw [← hk15] at hle
    refine Nat.le_of_mul_le_mul_right ?_ (Nat.two_pow_pos (k + 1))
    rw [← pow_add, ← Nat.add_assoc, ← hk15]
    omega
  · exact hk

/-! ### The code of a symbol -/

theorem getD_set {next : List Nat} {i j : Nat} (hi : i < next.length) (v : Nat) :
    (next.set i v).getD j 0 = if i = j then v else next.getD j 0 := by
  split
  · rename_i h
    subst h
    simp [List.getD, hi]
  · rename_i h
    simp [List.getD, h]

/-- The assignment loop gives a symbol the next code of its length, moved on by the symbols of that length before it. -/
theorem assignCodes_getD (lengths : List (BitVec 4)) : ∀ (next : List Nat) (sym : Nat), next.length = 16 →
    sym < lengths.length → (assignCodes lengths next).getD sym 0 =
      if (lengths.getD sym 0).toNat = 0 then 0
      else next.getD (lengths.getD sym 0).toNat 0 + (lengths.take sym).countP fun l => l == lengths.getD sym 0 := by
  induction lengths with
  | nil => exact fun _ _ _ h => absurd h (Nat.not_lt_zero _)
  | cons l lengths ih =>
    intro next sym hn h
    have hl := l.isLt
    cases sym with
    | zero =>
      rw [assignCodes]
      split <;> simp [*]
    | succ sym =>
      have h : sym < lengths.length := Nat.lt_of_succ_lt_succ h
      have hcount : (List.take (sym + 1) (l :: lengths)).countP (fun x => x == lengths.getD sym 0) =
          (lengths.take sym).countP (fun x => x == lengths.getD sym 0) +
            if l.toNat = (lengths.getD sym 0).toNat then 1 else 0 := by
        simp only [List.take_succ_cons, List.countP_cons, BitVec.toNat_inj, beq_iff_eq]
      rw [List.getD_cons_succ, hcount, assignCodes]
      by_cases h0 : l.toNat = 0
      · rw [if_pos h0, List.getD_cons_succ, ih next sym hn h]
        by_cases hs : (lengths.getD sym 0).toNat = 0
        · rw [if_pos hs, if_pos hs]
        · rw [if_neg hs, if_neg hs, if_neg (h0.trans_ne (Ne.symm hs)), Nat.add_zero]
      · rw [if_neg h0, List.getD_cons_succ, ih _ sym (by rwa [List.length_set]) h, getD_set (by omega)]
        by_cases hs : l.toNat = (lengths.getD sym 0).toNat
        · rw [if_pos hs, if_pos hs, ← hs, Nat.add_assoc, Nat.add_comm 1]
        · rw [if_neg hs, if_neg hs, Nat.add_zero]

/-- The code of a symbol in closed form (R144). -/
theorem canonical_getD {lengths : List (BitVec 4)} {sym : Nat} (h : sym < lengths.length) :
    (canonical lengths).getD sym 0 =
      if (lengths.getD sym 0).toNat = 0 then 0
      else firstCode lengths (lengths.getD sym 0).toNat +
        (lengths.take sym).countP fun l => l == lengths.getD sym 0 := by
  have hlt : (lengths.getD sym 0).toNat < Config.maxBits + 1 := (lengths.getD sym 0).isLt
  have hf : ((List.range (Config.maxBits + 1)).map (firstCode lengths)).getD (lengths.getD sym 0).toNat 0 =
      firstCode lengths (lengths.getD sym 0).toNat := by
    rw [List.getD, List.getElem?_map, List.getElem?_range hlt, Option.map_some, Option.getD_some]
  rw [canonical, assignCodes_getD _ _ _ (by simp [Config.maxBits]) h, hf]

/-- A symbol that meets a test is not counted among those before it. -/
theorem countP_take_lt {lengths : List (BitVec 4)} {p : BitVec 4 → Bool} {sym : Nat} (h : sym < lengths.length)
    (hp : p (lengths.getD sym 0) = true) : (lengths.take sym).countP p < lengths.countP p := by
  have hd : lengths.getD sym 0 = lengths[sym] := List.getD_eq_getElem _ _ h
  rw [hd] at hp
  calc (lengths.take sym).countP p < (lengths.take sym).countP p + (lengths.drop sym).countP p := by
        rw [List.drop_eq_getElem_cons h, List.countP_cons, if_pos hp]
        omega
    _ = lengths.countP p := by rw [← List.countP_append, List.take_append_drop]

theorem blCount_toNat (lengths : List (BitVec 4)) {len : BitVec 4} (h : len.toNat ≠ 0) :
    blCount lengths len.toNat = lengths.countP fun l => l == len := by
  rw [blCount_of_ne_zero _ h]
  congr 1
  funext l
  rw [Bool.eq_iff_iff, beq_iff_eq, beq_iff_eq, BitVec.toNat_inj]

/-- A symbol's code lies among the codes of its length. -/
theorem canonical_mem {lengths : List (BitVec 4)} {sym : Nat} (h : sym < lengths.length)
    (h0 : (lengths.getD sym 0).toNat ≠ 0) :
    firstCode lengths (lengths.getD sym 0).toNat ≤ (canonical lengths).getD sym 0 ∧
      (canonical lengths).getD sym 0 <
        firstCode lengths (lengths.getD sym 0).toNat + blCount lengths (lengths.getD sym 0).toNat := by
  have := countP_take_lt (p := fun l => l == lengths.getD sym 0) h (beq_self_eq_true _)
  rw [canonical_getD h, if_neg h0, blCount_toNat _ h0]
  omega

/-- A code fits its length (R152). -/
theorem canonical_lt {lengths : List (BitVec 4)} (hk : kraft lengths ≤ 2 ^ 15) {sym : Nat} (h : sym < lengths.length)
    (h0 : (lengths.getD sym 0).toNat ≠ 0) : (canonical lengths).getD sym 0 < 2 ^ (lengths.getD sym 0).toNat :=
  (canonical_mem h h0).2.trans_le (firstCode_add_blCount_le hk (Nat.le_of_lt_succ (lengths.getD sym 0).isLt))

/-- Symbols of one length have their codes in their own order. -/
theorem canonical_strictMono {lengths : List (BitVec 4)} {a b : Nat} (hab : a < b) (hb : b < lengths.length)
    (hl : lengths.getD a 0 = lengths.getD b 0) (h0 : (lengths.getD b 0).toNat ≠ 0) :
    (canonical lengths).getD a 0 < (canonical lengths).getD b 0 := by
  have ha : a < (lengths.take b).length := by rw [List.length_take]; omega
  have hta : (lengths.take b).getD a 0 = lengths.getD a 0 := by simp [List.getD, hab]
  have hlt := countP_take_lt (p := fun l => l == lengths.getD b 0) ha (by rw [hta, hl, beq_self_eq_true])
  rw [List.take_take, Nat.min_eq_left hab.le] at hlt
  rw [canonical_getD (hab.trans hb), canonical_getD hb, hl, if_neg h0, if_neg h0]
  omega

/-- No code begins another (R152): the codes of a greater length begin after this length's last. -/
theorem canonical_prefixFree {lengths : List (BitVec 4)} {a b : Nat} (ha : a < lengths.length) (hb : b < lengths.length)
    (hab : a ≠ b) (h0 : (lengths.getD a 0).toNat ≠ 0)
    (hl : (lengths.getD a 0).toNat ≤ (lengths.getD b 0).toNat) :
    (canonical lengths).getD b 0 / 2 ^ ((lengths.getD b 0).toNat - (lengths.getD a 0).toNat) ≠
      (canonical lengths).getD a 0 := by
  rcases Nat.lt_or_eq_of_le hl with hlt | heq
  · obtain ⟨k, hk⟩ : ∃ k, (lengths.getD b 0).toNat = (lengths.getD a 0).toNat + k + 1 :=
      ⟨(lengths.getD b 0).toNat - (lengths.getD a 0).toNat - 1, by omega⟩
    have hle := firstCode_le lengths (lengths.getD a 0).toNat k
    obtain ⟨hb1, -⟩ := canonical_mem hb (by omega)
    obtain ⟨-, ha2⟩ := canonical_mem ha h0
    rw [← hk] at hle
    have hkd : (lengths.getD b 0).toNat - (lengths.getD a 0).toNat = k + 1 := by omega
    rw [hkd]
    exact (ha2.trans_le ((Nat.le_div_iff_mul_le (Nat.two_pow_pos _)).2 (hle.trans hb1))).ne'
  · have he : lengths.getD a 0 = lengths.getD b 0 := BitVec.toNat_inj.1 heq
    rw [heq, Nat.sub_self, pow_zero, Nat.div_one]
    rcases Nat.lt_or_gt_of_ne hab with h | h
    · exact (canonical_strictMono h hb he (heq ▸ h0)).ne'
    · exact (canonical_strictMono h ha he.symm h0).ne

/-! ### The search for a code -/

/-- What the search of R143 finds has the length and the code that were asked for. -/
theorem findCode_some {ls : List (BitVec 4)} {len c r : Nat} : ∀ {ks : List (BitVec 15)} {sym : Nat},
    findCode ls ks sym len c = some r →
      ∃ j, r = sym + j ∧ j < ls.length ∧ (ls.getD j 0).toNat = len ∧ (ks.getD j 0).toNat = c := by
  induction ls with
  | nil => intro ks sym h; simp [findCode] at h
  | cons l ls ih =>
    intro ks sym h
    cases ks with
    | nil => simp [findCode] at h
    | cons k ks =>
      rw [findCode] at h
      split at h
      · rename_i hc
        cases h
        exact ⟨0, rfl, Nat.succ_pos _, hc⟩
      · obtain ⟨j, hr, hj, hlc⟩ := ih h
        exact ⟨j + 1, by omega, Nat.succ_lt_succ hj, hlc⟩

/-- The search finds a symbol where there is one. -/
theorem findCode_isSome {ls : List (BitVec 4)} {len c : Nat} : ∀ {ks : List (BitVec 15)} {sym j : Nat},
    j < ls.length → j < ks.length → (ls.getD j 0).toNat = len → (ks.getD j 0).toNat = c →
      ∃ r, findCode ls ks sym len c = some r := by
  induction ls with
  | nil => exact fun h => absurd h (Nat.not_lt_zero _)
  | cons l ls ih =>
    intro ks sym j hj hk hl hc
    cases ks with
    | nil => exact absurd hk (Nat.not_lt_zero _)
    | cons k ks =>
      rw [findCode]
      split
      · exact ⟨_, rfl⟩
      · rename_i hne
        cases j with
        | zero => exact absurd ⟨hl, hc⟩ hne
        | succ j => exact ih (Nat.lt_of_succ_lt_succ hj) (Nat.lt_of_succ_lt_succ hk) hl hc

/-- The code that a table holds for a symbol with a code is the canonical one. -/
theorem build_code {lengths : List (BitVec 4)} (hk : kraft lengths ≤ 2 ^ 15) {sym : Nat} (h : sym < lengths.length)
    (h0 : (lengths.getD sym 0).toNat ≠ 0) :
    ((CodeTable.build lengths).codes.getD sym 0).toNat = (canonical lengths).getD sym 0 := by
  have hlt := canonical_lt hk h h0
  have hp : 2 ^ (lengths.getD sym 0).toNat ≤ 2 ^ 15 :=
    Nat.pow_le_pow_right (by omega) (Nat.le_of_lt_succ (lengths.getD sym 0).isLt)
  have hd : (CodeTable.build lengths).codes.getD sym 0 = BitVec.ofNat 15 ((canonical lengths).getD sym 0) := by
    simp [CodeTable.build, List.getD]
  rw [hd, BitVec.toNat_ofNat, Nat.mod_eq_of_lt (hlt.trans_le hp)]

/-- What a table finds for a code is a symbol with that canonical code. -/
theorem symbol_build_some {lengths : List (BitVec 4)} (hk : kraft lengths ≤ 2 ^ 15) {len c r : Nat} (hl : len ≠ 0)
    (h : (CodeTable.build lengths).symbol len c = some r) :
    r < lengths.length ∧ (lengths.getD r 0).toNat = len ∧ (canonical lengths).getD r 0 = c := by
  obtain ⟨j, rfl, hj, hlen, hc⟩ := findCode_some h
  rw [Nat.zero_add]
  exact ⟨hj, hlen, (build_code hk hj (hlen.trans_ne hl)).symm.trans hc⟩

/-- A table finds the one symbol that has the code. -/
theorem symbol_build {lengths : List (BitVec 4)} (hk : kraft lengths ≤ 2 ^ 15) {sym : Nat} (h : sym < lengths.length)
    (h0 : (lengths.getD sym 0).toNat ≠ 0) :
    (CodeTable.build lengths).symbol (lengths.getD sym 0).toNat ((canonical lengths).getD sym 0) = some sym := by
  obtain ⟨r, hr⟩ := findCode_isSome (sym := 0) h (by simpa [CodeTable.build] using h) rfl (build_code hk h h0)
  obtain ⟨hrl, hlen, hc⟩ := symbol_build_some hk h0 hr
  have hrs : r = sym := by
    by_contra hne
    refine canonical_prefixFree hrl h hne (hlen.trans_ne h0) hlen.le ?_
    rw [hlen, Nat.sub_self, pow_zero, Nat.div_one, hc]
  exact hrs ▸ hr

/-- No shorter front of a symbol's code is a code. -/
theorem symbol_build_front {lengths : List (BitVec 4)} (hk : kraft lengths ≤ 2 ^ 15) {sym : Nat}
    (h : sym < lengths.length) {k : Nat} (hk0 : k ≠ 0) (hkl : k < (lengths.getD sym 0).toNat) :
    (CodeTable.build lengths).symbol k ((canonical lengths).getD sym 0 / 2 ^ ((lengths.getD sym 0).toNat - k)) =
      none := by
  by_contra hne
  obtain ⟨r, hr⟩ := Option.ne_none_iff_exists'.1 hne
  obtain ⟨hrl, rfl, hc⟩ := symbol_build_some hk hk0 hr
  exact canonical_prefixFree hrl h (fun he => hkl.ne (he ▸ rfl)) hk0 hkl.le hc.symm

end Sys2Proof.Machine
end

section
/-! The encoding family, last part: the bits written for a token (R106) are fetched as the token's value (O41). -/

namespace Sys2Proof.Machine

/-! ### The bits of a value (R106) -/

@[simp] theorem lsbBits_length (v n : Nat) : (lsbBits v n).length = n := by
  induction n generalizing v with
  | zero => rfl
  | succ n ih => rw [lsbBits, List.length_cons, ih]

/-- A field is its low bits and then the rest. -/
theorem lsbBits_add (v m n : Nat) : lsbBits v (m + n) = lsbBits v m ++ lsbBits (v / 2 ^ m) n := by
  induction m generalizing v with
  | zero => rw [Nat.zero_add, pow_zero, Nat.div_one]; rfl
  | succ m ih => rw [Nat.succ_add, lsbBits, ih, lsbBits, List.cons_append, Nat.div_div_eq_div_mul, pow_succ']

/-- Bit `k` written for a value is bit `k` of the value. -/
theorem lsbBits_getD (v : Nat) {n k : Nat} (h : k < n) : ((lsbBits v n).getD k false).toNat = v / 2 ^ k % 2 := by
  induction n generalizing v k with
  | zero => exact absurd h (Nat.not_lt_zero k)
  | succ n ih =>
    cases k with
    | zero => exact bitAt_toNat_eq v 0
    | succ k => rw [lsbBits, List.getD_cons_succ, ih _ (Nat.lt_of_succ_lt_succ h), Nat.div_div_eq_div_mul, pow_succ']

/-- The same with the most significant bit first (R11). -/
theorem msbBits_getD (v : Nat) {n k : Nat} (h : k < n) :
    ((msbBits v n).getD k false).toNat = v / 2 ^ (n - (k + 1)) % 2 := by
  have hl : k < (lsbBits v n).length := by rwa [lsbBits_length]
  have hr : (msbBits v n).getD k false = (lsbBits v n).getD (n - (k + 1)) false := by
    rw [msbBits, List.getD, List.getElem?_reverse hl, lsbBits_length, Nat.sub_sub, Nat.add_comm 1, List.getD]
  rw [hr, lsbBits_getD v (by omega)]

@[simp] theorem msbBits_length (v n : Nat) : (msbBits v n).length = n := by
  rw [msbBits, List.length_reverse, lsbBits_length]

/-! ### Bits of the input (R140, R141) -/

theorem InputHas.append {s : State} {q : Nat} {a b : List Bool} (h : InputHas s q (a ++ b)) :
    InputHas s q a ∧ InputHas s (q + a.length) b := by
  obtain ⟨hlen, hbit⟩ := h
  rw [List.length_append] at hlen hbit
  refine ⟨⟨by omega, fun k hk => ?_⟩, ⟨by omega, fun k hk => ?_⟩⟩
  · rw [hbit k (by omega), List.getD_append _ _ _ _ hk]
  · rw [Nat.add_assoc, hbit (a.length + k) (by omega), List.getD_append_right _ _ _ _ (by omega),
      Nat.add_sub_cancel_left]

/-- The first `n` bits of a value, put together again, are the value's remainder. -/
theorem bitsValue_of_bits {bit : Nat → Nat} {v n : Nat} (h : ∀ k < n, bit k = v / 2 ^ k % 2) :
    bitsValue bit n = v % 2 ^ n := by
  induction n with
  | zero => simp [bitsValue, Nat.mod_one]
  | succ n ih =>
    rw [bitsValue, ih fun k hk => h k (by omega), h n (by omega), Nat.mod_pow_succ, Nat.mul_comm]

/-- Where the input holds the bits of a field, reading it gives its value, and the cursor is moved past it. -/
theorem readBits_lsbBits {s : State} (hq : Quiet s) (hs : s.lat.srcLen.toNat ≤ Config.srcLenMax) {q v n : Nat}
    (h : InputHas s q (lsbBits v n)) : readBits n (s.setP q) = .ok (v % 2 ^ n) (s.setP (q + n)) := by
  obtain ⟨hlen, hbit⟩ := h
  rw [lsbBits_length] at hlen hbit
  have hi : inputBits s = 8 * s.lat.srcLen.toNat := rfl
  simp only [Config.srcLenMax] at hs
  have hp : (s.setP q).p.toNat = q := setP_toNat (by omega)
  have hb : HasBits (s.setP q) n := by rw [HasBits, hp]; exact hlen
  have hv : peekBits (s.setP q) n = v % 2 ^ n :=
    bitsValue_of_bits fun k hk => by rw [hp, ← lsbBits_getD v hk, ← hbit k hk]; rfl
  rw [readBits_ok (s := s.setP q) hq hb, hp, hv, setP_setP]

theorem readBits_lsbBits_here {s : State} (hq : Quiet s) (hs : s.lat.srcLen.toNat ≤ Config.srcLenMax) {v n : Nat}
    (h : InputHas s s.p.toNat (lsbBits v n)) : readBits n s = .ok (v % 2 ^ n) (s.setP (s.p.toNat + n)) := by
  have hp : s.setP s.p.toNat = s := setP_self (by rw [BitVec.ofNat_toNat, BitVec.setWidth_eq])
  have hr := readBits_lsbBits hq hs h
  rwa [hp] at hr

/-! ### The fields -/

section
variable {s : State} (hq : Quiet s) (hs : s.lat.srcLen.toNat ≤ Config.srcLenMax) {v : Nat}
include hq hs

theorem fetchZlibHeader_bits (hv : v < 2 ^ 16) (h : InputHas s s.p.toNat (lsbBits (v / 256) 8 ++ lsbBits v 8)) :
    fetchZlibHeader s = .ok v (s.setP (s.p.toNat + 16)) := by
  obtain ⟨h1, h2⟩ := h.append
  rw [lsbBits_length] at h2
  rw [fetchZlibHeader, Act.bind_ok (readBits_lsbBits_here hq hs h1), Act.bind_ok (readBits_lsbBits hq hs h2),
    Act.pure_apply]
  congr 1
  omega

theorem fetchBlockHeader_bits (hv : v < 2 ^ 3) (h : InputHas s s.p.toNat (lsbBits v 3)) :
    fetchBlockHeader s = .ok v (s.setP (s.p.toNat + 3)) := by
  rw [lsbBits_add v 1 2] at h
  obtain ⟨h1, h2⟩ := h.append
  rw [lsbBits_length] at h2
  rw [fetchBlockHeader, Act.bind_ok (readBits_lsbBits_here hq hs h1), Act.bind_ok (readBits_lsbBits hq hs h2),
    Act.pure_apply]
  congr 1
  omega

theorem fetchStoredHeader_bits (hv : v < 2 ^ 32) (h : InputHas s (8 * ((s.p.toNat + 7) / 8)) (lsbBits v 32)) :
    fetchStoredHeader s = .ok v (s.setP (8 * ((s.p.toNat + 7) / 8) + 32)) := by
  rw [lsbBits_add v 16 16] at h
  obtain ⟨h1, h2⟩ := h.append
  rw [lsbBits_length] at h2
  rw [fetchStoredHeader, Act.bind_ok (alignToByte_ok hq), Act.bind_ok (readBits_lsbBits hq hs h1),
    Act.bind_ok (readBits_lsbBits hq hs h2), Act.pure_apply]
  congr 1
  omega

theorem fetchDynHeader_bits (hv : v < 2 ^ 14) (h : InputHas s s.p.toNat (lsbBits v 14)) :
    fetchDynHeader s = .ok v (s.setP (s.p.toNat + 14)) := by
  rw [lsbBits_add v 10 4, lsbBits_add v 5 5] at h
  obtain ⟨h12, h3⟩ := h.append
  obtain ⟨h1, h2⟩ := h12.append
  rw [List.length_append, lsbBits_length, lsbBits_length] at h3
  rw [lsbBits_length] at h2
  rw [fetchDynHeader, Act.bind_ok (readBits_lsbBits_here hq hs h1), Act.bind_ok (readBits_lsbBits hq hs h2),
    Act.bind_ok (readBits_lsbBits hq hs h3), Act.pure_apply]
  congr 1
  omega

theorem fetchByte_bits (hv : v < 2 ^ 8) (h : InputHas s s.p.toNat (lsbBits v 8)) :
    readBits 8 s = .ok v (s.setP (s.p.toNat + 8)) := by
  rw [readBits_lsbBits_here hq hs h, Nat.mod_eq_of_lt hv]

theorem fetchTrailer_bits (hv : v < 2 ^ 32) (h : InputHas s (8 * ((s.p.toNat + 7) / 8))
      (lsbBits (v / 2 ^ 24) 8 ++ lsbBits (v / 2 ^ 16) 8 ++ lsbBits (v / 2 ^ 8) 8 ++ lsbBits v 8)) :
    fetchTrailer s = .ok v (s.setP (8 * ((s.p.toNat + 7) / 8) + 32)) := by
  obtain ⟨h321, h0⟩ := h.append
  obtain ⟨h32, h1⟩ := h321.append
  obtain ⟨h3, h2⟩ := h32.append
  simp only [List.length_append, lsbBits_length, Nat.reduceAdd] at h2 h1 h0
  rw [fetchTrailer, Act.bind_ok (alignToByte_ok hq), Act.bind_ok (readBits_lsbBits hq hs h3),
    Act.bind_ok (readBits_lsbBits hq hs h2), Act.bind_ok (readBits_lsbBits hq hs h1),
    Act.bind_ok (readBits_lsbBits hq hs h0), Act.pure_apply]
  congr 1
  omega

end

/-! ### The symbols -/

/-- The first `k` bits of a code, first bit most significant, are its front (R11). -/
theorem codeValue_of_bits {bit : Nat → Nat} {c n : Nat} (hc : c < 2 ^ n)
    (h : ∀ k < n, bit k = c / 2 ^ (n - (k + 1)) % 2) : ∀ k ≤ n, codeValue bit k = c / 2 ^ (n - k) := by
  intro k
  induction k with
  | zero => exact fun _ => (Nat.div_eq_of_lt hc).symm
  | succ k ih =>
    intro hk
    have hd : c / 2 ^ (n - k) = c / 2 ^ (n - (k + 1)) / 2 := by
      rw [Nat.div_div_eq_div_mul, ← pow_succ]
      congr 2
      omega
    rw [codeValue, ih (by omega), h k (by omega), hd]
    omega

/-- A table built from lengths that are not over-subscribed decodes each symbol's code to the symbol (R143, R152). -/
theorem build_decode {lengths : List (BitVec 4)} (hk : kraft lengths ≤ 2 ^ 15) {sym : Nat} (h : sym < lengths.length)
    (h0 : (lengths.getD sym 0).toNat ≠ 0) {bit : Nat → Nat}
    (hb : ∀ k < (lengths.getD sym 0).toNat,
      bit k = (canonical lengths).getD sym 0 / 2 ^ ((lengths.getD sym 0).toNat - (k + 1)) % 2) :
    (CodeTable.build lengths).decode bit = some (sym, (lengths.getD sym 0).toNat) := by
  have hv := codeValue_of_bits (canonical_lt hk h h0) hb
  have hlt := (lengths.getD sym 0).isLt
  refine matchCode_some ?_ (fun k hk0 hkl => ?_) ((lengths.getD sym 0).toNat - 1) 0 Config.maxBits (by omega) ?_
  · rw [hv _ le_rfl, Nat.sub_self, pow_zero, Nat.div_one, symbol_build hk h h0]
  · rw [hv k hkl.le, symbol_build_front hk h (by omega) hkl]
  · simp only [Config.maxBits]
    omega

/-- Where the input holds the code of a symbol, DecodeSym gives the symbol, and the cursor is moved past it. -/
theorem decodeSym_symbolBits {s : State} (hq : Quiet s) {t : CodeTable} {sym : Nat} (hc : HasCode t sym)
    (h : InputHas s s.p.toNat (symbolBits t sym)) :
    decodeSym t s = .ok sym (s.setP (s.p.toNat + (symbolBits t sym).length)) := by
  obtain ⟨lengths, rfl, ho, hsym, h0⟩ := hc
  have hk := (overSubscribed_eq_false lengths).1 ho
  have hbits : symbolBits (CodeTable.build lengths) sym =
      msbBits ((canonical lengths).getD sym 0) (lengths.getD sym 0).toNat := by
    rw [symbolBits, build_code hk hsym h0]
    rfl
  rw [hbits] at h ⊢
  obtain ⟨hlen, hbit⟩ := h
  rw [msbBits_length] at hlen hbit ⊢
  exact decodeSym_ok hq (build_decode hk hsym h0 fun k hkl => by rw [hbit k hkl, msbBits_getD _ hkl]) hlen

/-- Settles O41, by the format: the fields by their bits, the symbols by their codes. -/
theorem assembledTokenIsFetched : Obligations.AssembledTokenIsFetched := by
  intro f v i s hcmd hstatus hd hq hs hc bits q h
  have hv := decode_lt hd
  cases f with
  | cmd => exact absurd rfl hcmd
  | status => exact absurd rfl hstatus
  | zhdr => exact fetchZlibHeader_bits hq hs hv h
  | bhdr => exact fetchBlockHeader_bits hq hs hv h
  | stored => exact fetchStoredHeader_bits hq hs hv h
  | dynHdr => exact fetchDynHeader_bits hq hs hv h
  | clSym => exact decodeSym_symbolBits hq hc h
  | litLen => exact decodeSym_symbolBits hq hc h
  | dist => exact decodeSym_symbolBits hq hc h
  | trailer => exact fetchTrailer_bits hq hs hv h
  | filterRow => exact fetchByte_bits hq hs hv h
  | codeLen => exact fetchByte_bits hq hs hv h

end Sys2Proof.Machine
end

section
/-! The command family: the parameter check of START and the starts that cannot run (O2, O3, O4), ABORT and
STATUS_CLEAR (O6, O7), and the parameter writes and register reads on the bus (O55, O56). -/

namespace Sys2Proof.Machine

/-! ### The parameter check (R122) -/

/-- The tests of R122, each read as what it admits. -/
theorem checkParameters_eq_none_iff (l : Latched) : checkParameters l = none ↔
    l.op.toNat ∈ [1, 2, 3] ∧ LegalRanges l ∧
      (l.op.toNat = 2 → 1 ≤ l.bpp.toNat ∧ l.bpp.toNat ≤ 8 ∧ l.rows.toNat ≠ 0 ∧ l.rowBytes.toNat ≠ 0) ∧
      (l.op.toNat = 3 → 1 ≤ l.nsym.toNat ∧ l.nsym.toNat ≤ 288) := by
  simp only [checkParameters, ite_eq_iff, reduceCtorEq, and_false, false_or, and_true, LegalRanges, Nat.not_lt,
    Classical.not_not, Bool.not_eq_true]
  constructor
  · rintro ⟨hop, hlen, hsrc, hdst, hmeet, hbpp, hgeo, hsym⟩
    exact ⟨hop, ⟨hlen, hsrc, hdst, hmeet⟩, fun h2 => by omega, fun h3 => by omega⟩
  · rintro ⟨hop, ⟨hlen, hsrc, hdst, hmeet⟩, hunf, hsym⟩
    exact ⟨hop, hlen, hsrc, hdst, hmeet, fun ⟨h2, h⟩ => h ⟨(hunf h2).1, (hunf h2).2.1⟩, by omega, by omega⟩

theorem legalRanges_of_checkParameters {l : Latched} (h : checkParameters l = none) : LegalRanges l :=
  ((checkParameters_eq_none_iff l).1 h).2.1

theorem rangesMeet_eq_false_iff (a n b m : Nat) :
    rangesMeet a n b m = false ↔ ¬(0 < n ∧ 0 < m ∧ a < b + m ∧ b < a + n) := by
  simp only [rangesMeet, Bool.and_eq_false_iff, decide_eq_false_iff_not, not_and_or, or_assoc]

theorem op_eq_ofNat_iff {op : BitVec 4} {k : Nat} (hk : k < 2 ^ 4) : op = BitVec.ofNat 4 k ↔ op.toNat = k := by
  rw [← BitVec.toNat_inj, BitVec.toNat_ofNat, Nat.mod_eq_of_lt hk]

/-- Settles O3: the check's tests are the conditions of R122, and legal ranges neither wrap nor meet. -/
theorem parameterCheckAcceptsExactlyLegal : Obligations.ParameterCheckAcceptsExactlyLegal := by
  refine ⟨fun l => ?_, fun s h j k hj hk => ?_⟩
  · have h1 : l.op = 1 ↔ l.op.toNat = 1 := op_eq_ofNat_iff (by decide)
    have h2 : l.op = 2 ↔ l.op.toNat = 2 := op_eq_ofNat_iff (by decide)
    have h3 : l.op = 3 ↔ l.op.toNat = 3 := op_eq_ofNat_iff (by decide)
    have hzero (w : Word) : w ≠ 0 ↔ w.toNat ≠ 0 := BitVec.toNat_ne
    rw [checkParameters_eq_none_iff, h1, h2, h3, hzero, hzero]
    simp only [LegalRanges, rangesMeet_eq_false_iff, Config.srcLenMax, Config.addrSpace, List.mem_cons,
      List.not_mem_nil, or_false, and_assoc]
  · have hl := legalRanges_of_checkParameters h
    have hne := hl.apart hj hk
    rw [hl.input_eq hj, hl.dest_eq hk] at hne
    exact ⟨hl.input_eq hj, hl.dest_eq hk, hne⟩

/-! ### A START that cannot run (R66, R67, R122, R126) -/

theorem rangeFault_cases {pl : Config.Platform} {a n : Nat} {f : Fault} (h : rangeFault pl a n = some f) :
    f = .registerBlockRange ∨ f = .unbackedMemory := by
  simp only [rangeFault, ite_eq_iff, reduceCtorEq, and_false, false_or, Option.some.injEq] at h
  rcases h with ⟨-, rfl⟩ | ⟨-, -, rfl⟩
  · exact .inl rfl
  · exact .inr rfl

theorem latchFault_cases {pl : Config.Platform} {l : Latched} {f : Fault} (h : latchFault pl l = some f) :
    f = .registerBlockRange ∨ f = .unbackedMemory := by
  unfold latchFault at h
  split at h
  · rename_i hf
    exact rangeFault_cases (hf.trans h)
  · exact rangeFault_cases h

theorem startCommand_illegal {s : State} {op : BitVec 4} (hp : checkParameters (latchParameters op s) ≠ none)
    (ie : Bool) : startCommand op ie s = .next ((s.started op ie).complete .invalidParameter) := by
  obtain ⟨test, ht⟩ := Option.ne_none_iff_exists'.1 hp
  simp only [startCommand, started_lat, ht, tokenEnd]

theorem startCommand_fault {s : State} {op : BitVec 4} {f : Fault}
    (hp : checkParameters (latchParameters op s) = none) (hl : latchFault s.plat (latchParameters op s) = some f)
    (ie : Bool) : startCommand op ie s = .fault f := by
  simp only [startCommand, started_lat, started_plat, hp, hl]

/-- Settles O2: a failed check completes the command, and forbidden ranges stop it. -/
theorem startThatCannotRun : Obligations.StartThatCannotRun := by
  intro abort ie s hb c hc
  rw [(exec_startCommand hc).1, ctrlWrite_start hb]
  exact ⟨fun hp => startCommand_illegal hp ie, fun f hp hl => ⟨startCommand_fault hp hl ie, latchFault_cases hl⟩⟩

/-- The OP of a reserved command names no command (R126). -/
theorem reservedCommand_op {abort ie : Bool} {c : Instr × BitVec 4} (hc : c ∈ reservedCommands abort ie) :
    c.2.toNat ∉ [1, 2, 3] := by
  have hop : ∀ op ∈ (reservedCommands abort ie).map (·.2), op.toNat ∉ [1, 2, 3] := by
    simp only [reservedCommands, List.map_cons, List.map_nil]
    decide
  exact hop _ (List.mem_map_of_mem hc)

/-- Settles O4: a reserved OP fails the first test of R122, and the START completes as any with illegal parameters. -/
theorem reservedCommandCompletesAtOnce : Obligations.ReservedCommandCompletesAtOnce := by
  intro abort ie s hb c hc
  rw [exec_reservedCommand hc, ctrlWrite_start hb]
  exact startCommand_illegal (fun hp => reservedCommand_op hc (checkParameters_none hp).1) ie

/-! ### ABORT and STATUS_CLEAR (R127, R128) -/

theorem exec_abort (ie : Bool) (op : BitVec 4) : exec (.abort ie op) = ctrlWrite false true ie op := rfl

theorem exec_statusClear (d e : Bool) (s : State) : exec (.statusClear d e) s = .next (s.statusClear d e) := rfl

theorem ctrlWrite_abort_busy {s : State} (h : s.busy = true) (start ie : Bool) (op : BitVec 4) :
    ctrlWrite start true ie op s = .next { s with ie := ie, abortReq := true } := by
  rw [ctrlWrite_busy h, Bool.or_true]

/-- Two lists of STARTs, with ABORT = 1 and with ABORT = 0, that agree in their OPs: while idle each START of the one
does what its partner does (R127). -/
theorem exec_zip_abort_idle {α : Type} {instr : α → Instr} {op : α → BitVec 4} {ie : Bool} {l l' : List α}
    (hl : ∀ c ∈ l, exec (instr c) = ctrlWrite true true ie (op c))
    (hl' : ∀ c ∈ l', exec (instr c) = ctrlWrite true false ie (op c))
    (hop : (l.zip l').map (op ·.1) = (l.zip l').map (op ·.2)) {s : State} (hs : s.busy = false) :
    ∀ c ∈ l.zip l', exec (instr c.1) s = exec (instr c.2) s := by
  intro c hc
  obtain ⟨h1, h2⟩ := List.of_mem_zip hc
  rw [hl _ h1, hl' _ h2, ctrlWrite_start hs, ctrlWrite_start hs, List.map_inj_left.1 hop c hc]

/-- Settles O6: every CTRL write with ABORT = 1 is one to `ctrlWrite`, which looks at ABORT only while busy. -/
theorem abortWriteRequestsOnlyWhileBusy : Obligations.AbortWriteRequestsOnlyWhileBusy := by
  intro ie op s
  refine ⟨fun hb => ⟨ctrlWrite_abort_busy hb .., fun c hc => ?_, fun c hc => ?_⟩, fun hb => ⟨?_, ?_, ?_⟩⟩
  · rw [(exec_startCommand hc).1, ctrlWrite_abort_busy hb]
  · rw [exec_reservedCommand hc, ctrlWrite_abort_busy hb]
  · rw [exec_abort, ctrlWrite_store hb]
  · exact exec_zip_abort_idle (l := startCommands true ie) (l' := startCommands false ie)
      (fun _ h => (exec_startCommand h).1) (fun _ h => (exec_startCommand h).1) rfl hb
  · exact exec_zip_abort_idle (l := reservedCommands true ie) (l' := reservedCommands false ie)
      (fun _ h => exec_reservedCommand h) (fun _ h => exec_reservedCommand h) rfl hb

/-- Settles O7: the write is `State.statusClear`, and the interrupt line needs DONE. -/
theorem statusClearIsWriteOneToClear : Obligations.StatusClearIsWriteOneToClear := by
  intro d e s
  refine ⟨s.statusClear d e, exec_statusClear d e s, ?_, fun hd => ?_⟩
  · simp [State.statusClear, Bool.and_comm]
  · simp [State.irq, hd]

/-! ### Parameter writes (R129) -/

theorem regWrite_param {r : Reg} (hc : r ≠ .ctrl) (hs : r ≠ .status) (w : Word) (s : State) :
    regWrite r w s = .next (paramWrite r w s) := by
  cases r with
  | ctrl => exact absurd rfl hc
  | status => exact absurd rfl hs
  | _ => rfl

theorem paramWrite_busy {s : State} (h : s.busy = true) (r : Reg) (w : Word) : paramWrite r w s = s := if_pos h

/-- Settles O55: the write is a parameter write, and while idle each register takes its bits of the word. -/
theorem parameterWrites : Obligations.ParameterWrites := by
  intro s rest r w hbase hc hs hhost u
  have hstep : step s = .next (paramWrite r w u) :=
    (step_write_register hbase rfl hhost).trans (regWrite_param hc hs w u)
  refine ⟨fun hb => ?_, fun hb => ?_⟩
  · rw [hstep, paramWrite_busy (s := u) hb]
  · have hu : ¬u.busy = true := Bool.eq_false_iff.1 hb
    refine hstep.trans (congrArg Host.Outcome.next ?_)
    cases r <;> exact if_neg hu

/-! ### Register reads (R30, R130) -/

theorem step_read_register {s : State} {rest : List HostItem} {r : Reg} (h : s.plat.regBase.toNat + 64 ≤ 2 ^ 32)
    (hs : s.host = ⟨0, .read (s.plat.regBase + BitVec.ofNat 32 r.offset) 4⟩ :: rest) :
    step s = .next (hostRegRead r { s with host := rest }) := by
  simp only [step_read hs, hostRead, busTarget_register h]

theorem regRead_exact {s : State} {r : Reg} (h : ¬(s.busy = true ∧ r.isResult = true)) :
    regRead r s = (regValue r s, s) :=
  if_neg (by rwa [Bool.and_eq_true])

theorem regRead_draw {s : State} {r : Reg} (hb : s.busy = true) (hr : r.isResult = true) :
    regRead r s = (Config.busyRead s.draws &&& r.valueBits, s.drawn) :=
  if_pos (by rw [hb, hr]; rfl)

theorem ctrlRead_toNat (s : State) : (ctrlRead s).toNat = s.op.toNat * 16 + s.ie.toNat * 4 := by
  have := s.op.isLt
  have := s.ie.toNat_le
  simp only [ctrlRead, BitVec.toNat_ofNat]
  omega

theorem statusRead_toNat (s : State) :
    (statusRead s).toNat = s.errf.toNat * 4 + s.done.toNat * 2 + s.busy.toNat := by
  have := s.errf.toNat_le
  have := s.done.toNat_le
  have := s.busy.toNat_le
  simp only [statusRead, BitVec.toNat_ofNat]
  omega

theorem adlerRead_toNat (s : State) : (adlerRead s).toNat = s.s2.toNat * 65536 + s.s1.toNat := by
  rw [adlerRead, BitVec.toNat_append, ← Nat.shiftLeft_add_eq_or_of_lt s.s1.isLt, Nat.shiftLeft_eq]

theorem blkhdrRead_toNat (s : State) : (blkhdrRead s).toNat =
    s.nblocks.toNat * 65536 + s.hdrvalid.toNat * 8 + s.btype.toNat * 2 + s.bfinal.toNat := by
  have := s.nblocks.isLt
  have := s.hdrvalid.toNat_le
  have := s.btype.isLt
  have := s.bfinal.toNat_le
  simp only [blkhdrRead, BitVec.toNat_ofNat]
  omega

/-- A busy read of BLKHDR has its reserved bits 15:4 at 0 (R39). -/
theorem blkhdr_reserved_zero (w : Word) : (w &&& Reg.valueBits .blkhdr).toNat / 16 % 4096 = 0 := by
  have h : ((w &&& Reg.valueBits .blkhdr).extractLsb' 4 12).toNat = 0 := by
    rw [Reg.valueBits, BitVec.extractLsb'_and]
    simp
  simpa [BitVec.extractLsb', Nat.shiftRight_eq_div_pow] using h

/-- Settles O56: each register's word is the number of its fields. -/
theorem registerReads : Obligations.RegisterReads := by
  intro s rest r hbase hhost value
  have hstep := step_read_register hbase hhost
  refine ⟨fun hr => ?_, fun hb hr => ?_⟩
  · have hv : (regValue r { s with host := rest }).toNat = value := by
      cases r with
      | ctrl => exact ctrlRead_toNat _
      | status => exact statusRead_toNat _
      | errcode | unfBpp | hbNsym => exact BitVec.toNat_setWidth_of_le (by decide)
      | adler => exact adlerRead_toNat _
      | blkhdr => exact blkhdrRead_toNat _
      | _ => rfl
    refine ⟨hv ▸ BitVec.isLt _, ?_⟩
    rw [hstep, hostRegRead, regRead_exact (s := { s with host := rest }) hr, ← hv, BitVec.ofNat_toNat,
      BitVec.setWidth_eq]
  · refine ⟨Config.busyRead s.draws &&& r.valueBits, ?_, fun h => h ▸ blkhdr_reserved_zero _⟩
    rw [hstep, hostRegRead, regRead_draw (s := { s with host := rest }) hb hr]
    rfl

end Sys2Proof.Machine
end

section
/-! The Huffman family, first part: the bit cursor, the search of DecodeSym, the canonical construction and the round
trip of a sequence of symbols (O32, O35 to O37, O45, O46). -/

namespace Sys2Proof.Machine

/-! ### Values of bits as sums (R141, R143) -/

theorem bitsValue_eq_sum (bit : Nat → Nat) (n : Nat) : bitsValue bit n = ∑ i ∈ Finset.range n, bit i * 2 ^ i := by
  induction n with
  | zero => rfl
  | succ n ih => rw [bitsValue, ih, Finset.sum_range_succ]

theorem codeValue_eq_sum (bit : Nat → Nat) (n : Nat) :
    codeValue bit n = ∑ i ∈ Finset.range n, bit i * 2 ^ (n - 1 - i) := by
  induction n with
  | zero => rfl
  | succ n ih =>
    have hstep : ∀ i ∈ Finset.range n, bit i * 2 ^ (n + 1 - 1 - i) = 2 * (bit i * 2 ^ (n - 1 - i)) := by
      intro i hi
      have he : n + 1 - 1 - i = n - 1 - i + 1 := by have := Finset.mem_range.1 hi; omega
      rw [he, pow_succ']
      ring
    rw [codeValue, ih, Finset.sum_range_succ, Finset.sum_congr rfl hstep, ← Finset.mul_sum]
    simp

/-- Settles O45, by the two answers of ReadBits. -/
theorem readBitsIsLsbFirst : Obligations.ReadBitsIsLsbFirst := by
  intro s n hq hs
  refine ⟨fun hb => ⟨s.setP (s.p.toNat + n), ?_, setP_toNat (bits_lt hs hb), rfl⟩, fun hb => ?_⟩
  · rw [readBits_ok hq hb, peekBits, bitsValue_eq_sum]
  · exact readBits_truncated hq (Nat.not_le.2 hb)

/-! ### DecodeSym (R143) -/

/-- The search takes the least length at which the bits are a code. -/
theorem decode_some {t : CodeTable} {bit : Nat → Nat} {len sym : Nat} (h1 : 1 ≤ len) (h15 : len ≤ 15)
    (h : t.symbol len (codeValue bit len) = some sym)
    (hmin : ∀ k, 1 ≤ k → k < len → t.symbol k (codeValue bit k) = none) : t.decode bit = some (sym, len) :=
  matchCode_some h hmin (len - 1) 0 Config.maxBits (by omega) (by simp only [Config.maxBits]; omega)

theorem decode_none {t : CodeTable} {bit : Nat → Nat}
    (h : ∀ k, 1 ≤ k → k ≤ 15 → t.symbol k (codeValue bit k) = none) : t.decode bit = none :=
  matchCode_none Config.maxBits 0 fun k hk hk' => h k hk (by simp only [Config.maxBits] at hk'; omega)

/-- Settles O46, by what the search finds and whether it lies inside the input. -/
theorem decodeSymTakesTheMatchingCode : Obligations.DecodeSymTakesTheMatchingCode := by
  intro s t hq
  simp only [← codeValue_eq_sum fun i => peekBit s (s.p.toNat + i)]
  refine ⟨fun len sym h1 h15 h hmin => ?_, fun h => decodeSym_miss hq (decode_none h)⟩
  have hd := decode_some h1 h15 h hmin
  exact ⟨decodeSym_ok hq hd, fun hb => decodeSym_truncated hq hd (Nat.not_le.2 hb)⟩

/-! ### The canonical construction (R144, R152) -/

/-- Settles O35, by the closed form of a symbol's code. -/
theorem canonicalCodesAreConsecutive : Obligations.CanonicalCodesAreConsecutive := by
  intro lengths
  refine ⟨canonical_length lengths, rfl, fun len hlen => ?_, fun _ => canonical_getD⟩
  obtain ⟨n, rfl⟩ : ∃ n, len = n + 1 := ⟨len - 1, by omega⟩
  rw [Nat.add_sub_cancel, firstCode, blCount_of_ne_zero _ (by omega), Nat.mul_comm]

/-- Settles O36, by the ranges that the codes of each length lie in. -/
theorem canonicalCodesArePrefixFree : Obligations.CanonicalCodesArePrefixFree := by
  intro lengths hk
  exact ⟨fun a ha h0 => canonical_lt hk ha h0.ne',
    fun a ha b hb hab h0 hl => canonical_prefixFree ha hb hab h0.ne' hl⟩

/-! ### A sequence of symbols (R153) -/

theorem setP_here (s : State) : s.setP s.p.toNat = s := setP_self (by rw [BitVec.ofNat_toNat, BitVec.setWidth_eq])

/-- Where the input holds the codes of the symbols one after another, the decodes give the symbols in order. -/
theorem decodeSyms_symbolBits {t : CodeTable} (syms : List Nat) :
    ∀ {s : State}, Quiet s → s.lat.srcLen.toNat ≤ Config.srcLenMax → (∀ x ∈ syms, HasCode t x) →
      InputHas s s.p.toNat (syms.flatMap (symbolBits t)) →
        decodeSyms t syms.length s = .ok syms (s.setP (s.p.toNat + (syms.flatMap (symbolBits t)).length)) := by
  induction syms with
  | nil => exact fun _ _ _ _ => congrArg (Res.ok []) (setP_here _).symm
  | cons x syms ih =>
    intro s hq hs hc h
    rw [List.flatMap_cons] at h ⊢
    obtain ⟨hx, hrest⟩ := h.append
    have hp : (s.setP (s.p.toNat + (symbolBits t x).length)).p.toNat = s.p.toNat + (symbolBits t x).length :=
      setP_toNat (bits_lt hs hx.1)
    have hsyms := ih (s := s.setP (s.p.toNat + (symbolBits t x).length)) hq hs
      (fun y hy => hc y (List.mem_cons_of_mem x hy)) (by rw [hp]; exact hrest)
    rw [List.length_cons, decodeSyms, Act.bind_ok (decodeSym_symbolBits hq (hc x List.mem_cons_self) hx),
      Act.bind_ok hsyms, Act.pure_apply, setP_setP, hp, List.length_append, Nat.add_assoc]

/-- Settles O37, by induction on the symbols. -/
theorem huffmanSequenceRoundTrip : Obligations.HuffmanSequenceRoundTrip := by
  intro lengths syms s hk hsyms hq hs bits h
  refine decodeSyms_symbolBits syms hq hs (fun x hx => ?_) h
  obtain ⟨hlt, h0⟩ := hsyms x hx
  exact ⟨lengths, rfl, (overSubscribed_eq_false lengths).2 hk, hlt, h0.ne'⟩

/-! ### The code-length bytes of HUFF_BUILD (R150) -/

theorem exec_hblen_more {len : BitVec 4} {s : State} (h : s.symIdx + 1 < s.lat.nsym.toNat) :
    exec (.hblen len) s = .next (s.pushLength len) := by
  show execHblen len s = _
  rw [execHblen, if_pos h, tokenEnd_ok]

theorem exec_hblen_last {len : BitVec 4} {s : State} (h : s.lat.nsym.toNat ≤ s.symIdx + 1) :
    exec (.hblen len) s = tokenEnd (buildCode (s.pushLength len)) := by
  show execHblen len s = _
  rw [execHblen, if_neg (Nat.not_lt.2 h)]

/-- Settles O32, by the meaning of a byte that is not the last. -/
theorem lengthByteStored : Obligations.LengthByteStored := fun _ _ => exec_hblen_more

end Sys2Proof.Machine
end

section
/-! The Huffman family, second part: the two-level lookup table decodes as the search does (O38). Both give the one
symbol whose code the bits begin with, if there is one. -/

namespace Sys2Proof.Machine

/-! ### Values of bits, split and reversed (R146) -/

theorem codeValue_add (bit : Nat → Nat) (m n : Nat) :
    codeValue bit (m + n) = codeValue bit m * 2 ^ n + codeValue (fun i => bit (m + i)) n := by
  induction n with
  | zero => simp [codeValue]
  | succ n ih =>
    rw [← Nat.add_assoc, codeValue, ih, codeValue, pow_succ]
    ring

theorem codeValue_lt {bit : Nat → Nat} (h : ∀ i, bit i ≤ 1) (n : Nat) : codeValue bit n < 2 ^ n := by
  induction n with
  | zero => exact Nat.one_pos
  | succ n ih =>
    have := h n
    rw [codeValue, pow_succ]
    omega

/-- The front of a code value is the value of the first bits. -/
theorem codeValue_div {bit : Nat → Nat} (h : ∀ i, bit i ≤ 1) {k n : Nat} (hk : k ≤ n) :
    codeValue bit n / 2 ^ (n - k) = codeValue bit k := by
  obtain ⟨d, rfl⟩ := Nat.exists_eq_add_of_le hk
  rw [Nat.add_sub_cancel_left, codeValue_add, Nat.mul_comm, Nat.mul_add_div (Nat.two_pow_pos d),
    Nat.div_eq_of_lt (codeValue_lt (fun i => h (k + i)) d), Nat.add_zero]

theorem bitsValue_mod {bit : Nat → Nat} (h : ∀ i, bit i ≤ 1) {k n : Nat} (hk : k ≤ n) :
    bitsValue bit n % 2 ^ k = bitsValue bit k := by
  induction n, hk using Nat.le_induction with
  | base => exact Nat.mod_eq_of_lt (bitsValue_lt h k)
  | succ n hkn ih =>
    rw [bitsValue, Nat.add_mod, Nat.mod_eq_zero_of_dvd (Dvd.dvd.mul_left (pow_dvd_pow 2 hkn) _), Nat.add_zero,
      Nat.mod_mod, ih]

theorem reverseBits_lt (v k : Nat) : reverseBits v k < 2 ^ k := by
  induction k generalizing v with
  | zero => exact Nat.one_pos
  | succ k ih =>
    have h1 : v % 2 * 2 ^ k ≤ 1 * 2 ^ k := Nat.mul_le_mul_right _ (by omega)
    have := ih (v / 2)
    rw [reverseBits, pow_succ]
    omega

/-- Reversing tells apart exactly what the low bits tell apart. -/
theorem reverseBits_eq_reverseBits {a b : Nat} (k : Nat) :
    reverseBits a k = reverseBits b k ↔ a % 2 ^ k = b % 2 ^ k := by
  induction k generalizing a b with
  | zero => simp [reverseBits, Nat.mod_one]
  | succ k ih =>
    have ha := reverseBits_lt (a / 2) k
    have hb := reverseBits_lt (b / 2) k
    rw [reverseBits, reverseBits, pow_succ', Nat.mod_mul, Nat.mod_mul]
    constructor
    · intro h
      have hlow : reverseBits (a / 2) k = reverseBits (b / 2) k := by
        have := congrArg (· % 2 ^ k) h
        simpa [Nat.mod_eq_of_lt ha, Nat.mod_eq_of_lt hb] using this
      have htop : a % 2 = b % 2 := Nat.eq_of_mul_eq_mul_right (Nat.two_pow_pos k) (by omega)
      rw [htop, ih.1 hlow]
    · intro h
      have htop : a % 2 = b % 2 := by omega
      rw [htop, (ih (a := a / 2) (b := b / 2)).2 (by omega)]

/-- Reversing a value read first bit most significant gives the value read first bit least significant. -/
theorem reverseBits_codeValue {bit : Nat → Nat} (h : ∀ i, bit i ≤ 1) (n : Nat) :
    reverseBits (codeValue bit n) n = bitsValue bit n := by
  induction n with
  | zero => rfl
  | succ n ih =>
    have := h n
    have h2 : (2 * codeValue bit n + bit n) % 2 = bit n := by omega
    have hd : (2 * codeValue bit n + bit n) / 2 = codeValue bit n := by omega
    rw [codeValue, reverseBits, h2, hd, ih, bitsValue, Nat.add_comm]

/-- Reversing a value with one more bit on top puts that bit last. -/
theorem reverseBits_snoc {a b : Nat} (k : Nat) (ha : a < 2 ^ k) (hb : b ≤ 1) :
    reverseBits (a + b * 2 ^ k) (k + 1) = 2 * reverseBits a k + b := by
  induction k generalizing a with
  | zero =>
    have : a = 0 := by omega
    subst this
    simp only [reverseBits]
    omega
  | succ k ih =>
    have he : a + b * 2 ^ (k + 1) = a + 2 * (b * 2 ^ k) := by ring
    have hm : (a + 2 * (b * 2 ^ k)) % 2 = a % 2 := by omega
    have hd : (a + 2 * (b * 2 ^ k)) / 2 = a / 2 + b * 2 ^ k := by omega
    rw [he, reverseBits, hm, hd, ih (by rw [pow_succ] at ha; omega), reverseBits, pow_succ]
    ring

theorem reverseBits_bitsValue {bit : Nat → Nat} (h : ∀ i, bit i ≤ 1) (n : Nat) :
    reverseBits (bitsValue bit n) n = codeValue bit n := by
  induction n with
  | zero => rfl
  | succ n ih => rw [bitsValue, reverseBits_snoc n (bitsValue_lt h n) (h n), ih, codeValue]

/-- The test of an entry's index (R146): the reversed low bits of a code are the next bits, first bit least significant,
exactly if the low bits are the next bits, first bit most significant. -/
theorem reverseBits_eq_iff {bit : Nat → Nat} (h : ∀ i, bit i ≤ 1) {c k n : Nat} (hk : k ≤ n) :
    reverseBits c k = bitsValue bit n % 2 ^ k ↔ c % 2 ^ k = codeValue bit k := by
  rw [bitsValue_mod h hk, ← reverseBits_codeValue h, reverseBits_eq_reverseBits, Nat.mod_eq_of_lt (codeValue_lt h k)]

/-! ### The symbol that a sequence of bits begins with -/

/-- The bits begin with the code of symbol `sym` (R143). -/
def StartsWith (lengths : List (BitVec 4)) (bit : Nat → Nat) (sym : Nat) : Prop :=
  sym < lengths.length ∧ (lengths.getD sym 0).toNat ≠ 0 ∧
    codeValue bit (lengths.getD sym 0).toNat = (canonical lengths).getD sym 0

section
variable {lengths : List (BitVec 4)} (hk : kraft lengths ≤ 2 ^ 15) {bit : Nat → Nat} (hbit : ∀ i, bit i ≤ 1)
include hk hbit

/-- The search finds the symbol that the bits begin with. -/
theorem StartsWith.decode {sym : Nat} (h : StartsWith lengths bit sym) :
    (CodeTable.build lengths).decode bit = some (sym, (lengths.getD sym 0).toNat) := by
  obtain ⟨hsym, h0, hc⟩ := h
  refine build_decode hk hsym h0 fun k hkl => ?_
  have := hbit k
  rw [← hc, codeValue_div hbit (Nat.succ_le_of_lt hkl), codeValue]
  omega

/-- There is at most one such symbol (R152). -/
theorem StartsWith.unique {a b : Nat} (ha : StartsWith lengths bit a) (hb : StartsWith lengths bit b) : a = b := by
  have h := (ha.decode hk hbit).symm.trans (hb.decode hk hbit)
  exact congrArg Prod.fst (Option.some.inj h)

end

/-- The search finds nothing where there is no such symbol. -/
theorem decode_of_no_start {lengths : List (BitVec 4)} (hk : kraft lengths ≤ 2 ^ 15) {bit : Nat → Nat}
    (h : ∀ sym, ¬StartsWith lengths bit sym) : (CodeTable.build lengths).decode bit = none := by
  refine decode_none fun k hk1 _ => ?_
  by_contra hne
  obtain ⟨sym, hs⟩ := Option.ne_none_iff_exists'.1 hne
  obtain ⟨hsym, hlen, hc⟩ := symbol_build_some hk (by omega) hs
  exact h sym ⟨hsym, by omega, by rw [hlen, hc]⟩

/-! ### The entries of the lookup table (R146) -/

/-- The entry of symbol `sym`. -/
def entryOf (lengths : List (BitVec 4)) (sym : Nat) : Nat × Nat × Nat :=
  (sym, (lengths.getD sym 0).toNat, ((CodeTable.build lengths).codes.getD sym 0).toNat)

theorem mem_entries {lengths : List (BitVec 4)} {e : Nat × Nat × Nat} :
    e ∈ (CodeTable.build lengths).entries ↔ ∃ sym < lengths.length, e = entryOf lengths sym := by
  have hg : ∀ sym, (CodeTable.build lengths).entries[sym]? =
      if sym < lengths.length then some (entryOf lengths sym) else none := by
    intro sym
    split
    · rename_i h
      simp [CodeTable.entries, CodeTable.build, entryOf, List.getD, h]
    · rename_i h
      simp [CodeTable.entries, CodeTable.build, h]
  rw [List.mem_iff_getElem?]
  constructor
  · rintro ⟨sym, h⟩
    rw [hg] at h
    split at h
    · exact ⟨sym, ‹_›, (Option.some.inj h).symm⟩
    · cases h
  · rintro ⟨sym, h, rfl⟩
    exact ⟨sym, by rw [hg, if_pos h]⟩

section
variable {lengths : List (BitVec 4)} {bit : Nat → Nat} {p : Nat × Nat × Nat → Bool} {Q : Nat → Prop}
  (hp : ∀ sym < lengths.length, p (entryOf lengths sym) = true ↔ StartsWith lengths bit sym ∧ Q sym)
include hp

/-- A search with a test that only the code the bits begin with can meet finds its entry. -/
theorem find?_entries_some (hk : kraft lengths ≤ 2 ^ 15) (hbit : ∀ i, bit i ≤ 1) {sym : Nat}
    (h : StartsWith lengths bit sym) (hq : Q sym) :
    (CodeTable.build lengths).entries.find? p = some (entryOf lengths sym) := by
  have hs : ((CodeTable.build lengths).entries.find? p).isSome :=
    List.find?_isSome.2 ⟨_, mem_entries.2 ⟨sym, h.1, rfl⟩, (hp sym h.1).2 ⟨h, hq⟩⟩
  obtain ⟨e, he⟩ := Option.isSome_iff_exists.1 hs
  obtain ⟨a, ha, rfl⟩ := mem_entries.1 (List.mem_of_find?_eq_some he)
  rw [he, ((hp a ha).1 (List.find?_some he)).1.unique hk hbit h]

theorem find?_entries_none (h : ∀ sym, StartsWith lengths bit sym → ¬Q sym) :
    (CodeTable.build lengths).entries.find? p = none := by
  refine List.find?_eq_none.2 fun e he hpe => ?_
  obtain ⟨a, ha, rfl⟩ := mem_entries.1 he
  obtain ⟨hs, hq⟩ := (hp a ha).1 hpe
  exact h a hs hq

end

/-! ### The tests of the entries (R146) -/

/-- The code that the table holds for a symbol is the one the bits begin with. -/
theorem startsWith_iff {lengths : List (BitVec 4)} (hk : kraft lengths ≤ 2 ^ 15) {bit : Nat → Nat} {sym : Nat}
    (hsym : sym < lengths.length) : StartsWith lengths bit sym ↔ (lengths.getD sym 0).toNat ≠ 0 ∧
      ((CodeTable.build lengths).codes.getD sym 0).toNat = codeValue bit (lengths.getD sym 0).toNat := by
  have he := build_code hk hsym
  constructor
  · rintro ⟨-, h0, hc⟩
    exact ⟨h0, (he h0).trans hc.symm⟩
  · rintro ⟨h0, hc⟩
    exact ⟨hsym, h0, hc.symm.trans (he h0)⟩

/-- A value longer than 9 bits is that of the bits exactly if its front and its rest are. -/
theorem eq_codeValue_iff {bit : Nat → Nat} (h : ∀ i, bit i ≤ 1) {c n : Nat} (hn : 9 ≤ n) :
    c = codeValue bit n ↔
      c / 2 ^ (n - 9) = codeValue bit 9 ∧ c % 2 ^ (n - 9) = codeValue (fun i => bit (9 + i)) (n - 9) := by
  constructor
  · rintro rfl
    refine ⟨codeValue_div h hn, ?_⟩
    obtain ⟨d, rfl⟩ := Nat.exists_eq_add_of_le hn
    rw [Nat.add_sub_cancel_left, codeValue_add, Nat.mul_comm, Nat.mul_add_mod,
      Nat.mod_eq_of_lt (codeValue_lt (fun i => h (9 + i)) d)]
  · rintro ⟨hd, hm⟩
    obtain ⟨d, rfl⟩ := Nat.exists_eq_add_of_le hn
    rw [Nat.add_sub_cancel_left] at hd hm
    rw [codeValue_add, ← hd, ← hm, Nat.mul_comm, Nat.div_add_mod]

/-- The region of a front is as long as its longest code. -/
theorem le_regionLength {lengths : List (BitVec 4)} {sym front : Nat} (hsym : sym < lengths.length)
    (h9 : 9 < (lengths.getD sym 0).toNat)
    (hf : ((CodeTable.build lengths).codes.getD sym 0).toNat / 2 ^ ((lengths.getD sym 0).toNat - 9) = front) :
    (lengths.getD sym 0).toNat ≤ regionLength (CodeTable.build lengths) front := by
  rw [regionLength, List.foldl_eq_foldr]
  refine List.le_max_of_le (List.mem_map_of_mem (mem_entries.2 ⟨sym, hsym, rfl⟩)) ?_
  exact (if_pos ⟨h9, hf⟩).ge

section
variable {lengths : List (BitVec 4)} (hk : kraft lengths ≤ 2 ^ 15) {bit : Nat → Nat} (hbit : ∀ i, bit i ≤ 1)
include hk hbit

/-- The test of a root entry is met by the code that the bits begin with, if it has at most 9 bits. -/
theorem rootTest_iff {sym len code : Nat} (hsym : sym < lengths.length) (he : entryOf lengths sym = (sym, len, code)) :
    (0 < len && len ≤ 9 && reverseBits code len == bitsValue bit 9 % 2 ^ len) = true ↔
      StartsWith lengths bit sym ∧ (lengths.getD sym 0).toNat ≤ 9 := by
  cases he
  rw [startsWith_iff hk hsym, Bool.and_eq_true, Bool.and_eq_true, decide_eq_true_eq, decide_eq_true_eq, beq_iff_eq,
    Nat.pos_iff_ne_zero, and_assoc, and_assoc, and_congr_right_iff]
  intro h0
  have hlt : ((CodeTable.build lengths).codes.getD sym 0).toNat < 2 ^ (lengths.getD sym 0).toNat :=
    (build_code hk hsym h0).trans_lt (canonical_lt hk hsym h0)
  rw [and_comm, and_congr_left_iff]
  intro h9
  rw [reverseBits_eq_iff hbit h9, Nat.mod_eq_of_lt hlt]

/-- The test of a secondary entry is met by the code that the bits begin with, if it has more than 9 bits. -/
theorem regionTest_iff {sym len code : Nat} (hsym : sym < lengths.length)
    (he : entryOf lengths sym = (sym, len, code)) :
    (9 < len && code / 2 ^ (len - 9) == codeValue bit 9 && reverseBits code (len - 9) ==
      bitsValue (fun i => bit (9 + i)) (regionLength (CodeTable.build lengths) (codeValue bit 9) - 9) % 2 ^ (len - 9)) =
        true ↔ StartsWith lengths bit sym ∧ 9 < (lengths.getD sym 0).toNat := by
  cases he
  rw [startsWith_iff hk hsym, Bool.and_eq_true, Bool.and_eq_true, decide_eq_true_eq, beq_iff_eq, beq_iff_eq, and_assoc,
    and_comm (a := _ ∧ _), and_congr_right_iff]
  intro h9
  rw [eq_codeValue_iff hbit h9.le, and_iff_right (Nat.ne_zero_of_lt h9), and_congr_right_iff]
  intro hf
  rw [reverseBits_eq_iff (fun i => hbit (9 + i)) (Nat.sub_le_sub_right (le_regionLength hsym h9 hf) 9)]

/-! ### The table decode (R147) -/

/-- A code of at most 9 bits is in the root. -/
theorem rootEntry_direct {sym : Nat} (h : StartsWith lengths bit sym) (h9 : (lengths.getD sym 0).toNat ≤ 9) :
    rootEntry (CodeTable.build lengths) (bitsValue bit 9) = .direct (lengths.getD sym 0).toNat sym := by
  rw [rootEntry, find?_entries_some (Q := fun a => (lengths.getD a 0).toNat ≤ 9) ?test hk hbit h h9]
  case test => exact fun _ ha => rootTest_iff hk hbit ha rfl
  rfl

/-- Where the bits begin with no such code, the root has at most the region of the first 9 bits. -/
theorem rootEntry_region (h : ∀ sym, StartsWith lengths bit sym → ¬(lengths.getD sym 0).toNat ≤ 9) :
    rootEntry (CodeTable.build lengths) (bitsValue bit 9) =
      if regionLength (CodeTable.build lengths) (codeValue bit 9) = 0 then .invalid
      else .region (regionLength (CodeTable.build lengths) (codeValue bit 9)) (codeValue bit 9) := by
  rw [rootEntry, find?_entries_none ?test h]
  case test => exact fun _ ha => rootTest_iff hk hbit ha rfl
  simp only [Config.firstBits, reverseBits_bitsValue hbit]

/-- What the region of the first 9 bits holds for the bits after them. -/
theorem regionEntry_some {sym : Nat} (h : StartsWith lengths bit sym) (h9 : 9 < (lengths.getD sym 0).toNat) :
    regionEntry (CodeTable.build lengths) (codeValue bit 9) (bitsValue (fun i => bit (9 + i))
      (regionLength (CodeTable.build lengths) (codeValue bit 9) - 9)) = some (sym, (lengths.getD sym 0).toNat) := by
  rw [regionEntry, find?_entries_some (Q := fun a => 9 < (lengths.getD a 0).toNat) ?test hk hbit h h9]
  case test => exact fun _ ha => regionTest_iff hk hbit ha rfl
  rfl

theorem regionEntry_none (h : ∀ sym, ¬StartsWith lengths bit sym) :
    regionEntry (CodeTable.build lengths) (codeValue bit 9) (bitsValue (fun i => bit (9 + i))
      (regionLength (CodeTable.build lengths) (codeValue bit 9) - 9)) = none := by
  rw [regionEntry, find?_entries_none ?test fun sym hs => absurd hs (h sym)]
  case test => exact fun _ ha => regionTest_iff hk hbit ha rfl

/-- The lookup finds the symbol that the bits begin with. -/
theorem StartsWith.lookup {sym : Nat} (h : StartsWith lengths bit sym) :
    (CodeTable.build lengths).lookup bit = some (sym, (lengths.getD sym 0).toNat) := by
  have hroot := rootEntry_direct hk hbit h
  rw [CodeTable.lookup, Config.firstBits]
  by_cases h9 : (lengths.getD sym 0).toNat ≤ 9
  · rw [hroot h9]
  · have hne : regionLength (CodeTable.build lengths) (codeValue bit 9) ≠ 0 := by
      obtain ⟨hf, -⟩ := (eq_codeValue_iff hbit (by omega)).1 ((startsWith_iff hk h.1).1 h).2
      have := le_regionLength h.1 (by omega) hf
      omega
    rw [rootEntry_region hk hbit fun a ha => (h.unique hk hbit ha) ▸ h9, if_neg hne]
    exact regionEntry_some hk hbit h (by omega)

/-- The lookup finds nothing where there is no such symbol. -/
theorem lookup_of_no_start (h : ∀ sym, ¬StartsWith lengths bit sym) :
    (CodeTable.build lengths).lookup bit = none := by
  rw [CodeTable.lookup, Config.firstBits, rootEntry_region hk hbit fun sym hs => absurd hs (h sym)]
  by_cases h0 : regionLength (CodeTable.build lengths) (codeValue bit 9) = 0
  · rw [if_pos h0]
  · rw [if_neg h0]
    exact regionEntry_none hk hbit h

theorem lookup_eq_decode : (CodeTable.build lengths).lookup bit = (CodeTable.build lengths).decode bit := by
  by_cases h : ∃ sym, StartsWith lengths bit sym
  · obtain ⟨sym, hs⟩ := h
    rw [hs.lookup hk hbit, hs.decode hk hbit]
  · rw [not_exists] at h
    rw [lookup_of_no_start hk hbit h, decode_of_no_start hk h]

end

/-- Settles O38: both decodes find the symbol that the bits begin with, or none. -/
theorem lookupTableAgrees : Obligations.LookupTableAgrees := by
  intro lengths hk
  refine ⟨fun bit hbit => lookup_eq_decode hk hbit, fun s => ?_⟩
  simp only [tableSym, decodeSym, lookup_eq_decode hk fun _ => peekBit_le_one _ _]

end Sys2Proof.Machine
end

section
/-! The Huffman family, third part: the last code-length byte of HUFF_BUILD, its words and its errors (O33, O34). -/

namespace Sys2Proof.Machine

/-! ### The words as bytes (R151) -/

theorem wordBytes_getD (w : Word) {i : Nat} (h : i < 4) :
    (wordBytes w).getD i 0 = BitVec.ofNat 8 (w.toNat / 2 ^ (8 * i)) := by
  simp [wordBytes, List.getD, h]

theorem flatMap_wordBytes_length (ws : List Word) : (ws.flatMap wordBytes).length = 4 * ws.length := by
  induction ws with
  | nil => rfl
  | cons w ws ih => rw [List.flatMap_cons, List.length_append, ih, wordBytes_length, List.length_cons]; omega

/-- Byte `4 k + i` of a run of words is byte `i` of word `k`. -/
theorem flatMap_wordBytes_getD (ws : List Word) {k i : Nat} (hi : i < 4) :
    (ws.flatMap wordBytes).getD (4 * k + i) 0 = (wordBytes (ws.getD k 0)).getD i 0 := by
  induction ws generalizing k with
  | nil =>
    rw [wordBytes_getD _ hi]
    simp [List.getD]
  | cons w ws ih =>
    rw [List.flatMap_cons]
    cases k with
    | zero =>
      rw [List.getD_append _ _ _ _ (by rw [wordBytes_length]; omega), List.getD_cons_zero, Nat.mul_zero, Nat.zero_add]
    | succ k =>
      rw [List.getD_append_right _ _ _ _ (by rw [wordBytes_length]; omega), List.getD_cons_succ, ← ih,
        wordBytes_length]
      congr 1
      omega

/-- The words that HUFF_BUILD writes for a set of lengths. -/
def codeWords (lengths : List (BitVec 4)) : List Word :=
  ((CodeTable.build lengths).lengths.zip (CodeTable.build lengths).codes).map fun e => codeWord e.1 e.2

@[simp] theorem codeWords_length (lengths : List (BitVec 4)) : (codeWords lengths).length = lengths.length := by
  simp [codeWords, CodeTable.build]

theorem codeBytes_eq (lengths : List (BitVec 4)) :
    codeBytes (CodeTable.build lengths) = (codeWords lengths).flatMap wordBytes := by
  rw [codeBytes, codeWords, List.flatMap_map]

theorem codeBytes_length (lengths : List (BitVec 4)) :
    (codeBytes (CodeTable.build lengths)).length = 4 * lengths.length := by
  rw [codeBytes_eq, flatMap_wordBytes_length, codeWords_length]

theorem codeBytes_getD (lengths : List (BitVec 4)) {k i : Nat} (hi : i < 4) :
    (codeBytes (CodeTable.build lengths)).getD (4 * k + i) 0 = (wordBytes ((codeWords lengths).getD k 0)).getD i 0 := by
  rw [codeBytes_eq, flatMap_wordBytes_getD _ hi]

theorem codeWord_toNat (len : BitVec 4) (code : BitVec 15) :
    (codeWord len code).toNat = if len.toNat = 0 then 0 else code.toNat + len.toNat * 65536 := by
  have := len.isLt
  have := code.isLt
  unfold codeWord
  split
  · rfl
  · rw [BitVec.toNat_ofNat, Nat.mod_eq_of_lt (by omega)]

/-- Word `k` holds the canonical code and the length of symbol `k`, or 0. -/
theorem codeWords_getD {lengths : List (BitVec 4)} (hk : kraft lengths ≤ 2 ^ 15) {k : Nat} (h : k < lengths.length) :
    ((codeWords lengths).getD k 0).toNat =
      if (lengths.getD k 0).toNat = 0 then 0
      else (canonical lengths).getD k 0 + (lengths.getD k 0).toNat * 65536 := by
  have hw : (codeWords lengths).getD k 0 = codeWord (lengths.getD k 0) ((CodeTable.build lengths).codes.getD k 0) := by
    simp [codeWords, CodeTable.build, List.getD, h]
  rw [hw, codeWord_toNat]
  split
  · rfl
  · rw [build_code hk h ‹_›]

/-! ### Emitting bytes (R175, R274) -/

theorem emitBytes_append (a b : List Byte) : emitBytes (a ++ b) = (emitBytes a).bind fun _ => emitBytes b := by
  induction a with
  | nil => rfl
  | cons x a ih => rw [List.cons_append, emitBytes, ih, emitBytes, Act.bind_assoc]

section
variable {s : State} (hq : Quiet s) (hl : LegalRanges s.lat) (hm : Memory.wf s.mem) (bytes : List Byte)
include hq hl hm

theorem emitBytes_ok (h : HasRoom s bytes.length) :
    ∃ u, emitBytes bytes s = .ok () u ∧ Emitted s u bytes.length s.p.toNat (bytes.getD · 0) := by
  obtain ⟨u, hu, he⟩ := emitBytes_run hq hl bytes (Emitted.refl hm (bytes.getD · 0))
    (fun j _ => by rw [Nat.zero_add]) (by rw [Nat.zero_add]; exact h)
  rw [Nat.zero_add] at he
  exact ⟨u, hu, he⟩

/-- Bytes that pass the capacity are written up to it. -/
theorem emitBytes_overflow (ho : s.out.toNat ≤ s.lat.dstCap.toNat) (h : ¬HasRoom s bytes.length) :
    ∃ u, emitBytes bytes s = .raised .outputOverflow u ∧
      Emitted s u (s.lat.dstCap.toNat - s.out.toNat) s.p.toNat (bytes.getD · 0) := by
  obtain ⟨n, hn⟩ := Nat.exists_eq_add_of_le ho
  have h : ¬s.out.toNat + bytes.length ≤ s.lat.dstCap.toNat := h
  have hlt : n < bytes.length := by omega
  have hlen : (bytes.take n).length = n := by rw [List.length_take]; omega
  obtain ⟨u, hu, he⟩ := emitBytes_ok hq hl hm (bytes.take n) (by rw [HasRoom, hlen]; omega)
  rw [hlen] at he
  have hfull : ¬HasRoom u 1 := by rw [HasRoom, he.lat, he.out]; omega
  refine ⟨u, ?_, ?_⟩
  · rw [← List.take_append_drop n bytes, emitBytes_append, Act.bind_ok hu, List.drop_eq_getElem_cons hlt, emitBytes,
      Act.bind_raised (emit_overflow (he.quiet hq) hfull _)]
  · rw [hn, Nat.add_sub_cancel_left]
    exact he.congr fun k hk => by simp [List.getD, hk]

end

/-- Where only output was emitted, the bit cursor is unchanged too. -/
theorem Emitted.frame_p {s t : State} {n : Nat} {g : Nat → Byte} (h : Emitted s t n s.p.toNat g) :
    t = { s with out := t.out, s1 := t.s1, s2 := t.s2, mem := t.mem } := by
  have := h.frame
  rwa [BitVec.ofNat_toNat, BitVec.setWidth_eq] at this

/-! ### The last code-length byte (R150) -/

/-- The lengths of the symbols of HUFF_BUILD. -/
def State.symbolLengths (s : State) : List (BitVec 4) := s.lens.take s.lat.nsym.toNat

theorem symbolLengths_length {s : State} (h : s.lat.nsym.toNat ≤ s.lens.length) :
    s.symbolLengths.length = s.lat.nsym.toNat := by
  rw [State.symbolLengths, List.length_take, Nat.min_eq_left h]

/-- The state in which the words are written: the table is built. -/
def State.tableBuilt (s : State) : State := { s with thb := CodeTable.build s.symbolLengths }

theorem buildCode_overSubscribed {s : State} (hk : 2 ^ 15 < kraft s.symbolLengths) :
    buildCode s = .raised .invalidDynamicBlock s := if_pos ((overSubscribed_iff _).2 hk)

theorem buildCode_admitted {s : State} (hk : kraft s.symbolLengths ≤ 2 ^ 15) :
    buildCode s = ((emitBytes (codeBytes (CodeTable.build s.symbolLengths))).bind fun _ =>
      engineSet (State.complete .ok)) s.tableBuilt :=
  if_neg (Bool.eq_false_iff.1 ((overSubscribed_eq_false _).2 hk))

section
variable {s : State} (hk : kraft s.symbolLengths ≤ 2 ^ 15) (hq : Quiet s) (hl : LegalRanges s.lat)
  (hm : Memory.wf s.mem) (hn : s.lat.nsym.toNat ≤ s.lens.length)
include hk hq hl hm hn

/-- With room for the words, all of them are written and the command completes. -/
theorem buildCode_ok (hroom : HasRoom s (4 * s.lat.nsym.toNat)) :
    ∃ u, buildCode s = .ok () (u.complete .ok) ∧ Emitted s.tableBuilt u (4 * s.lat.nsym.toNat) s.p.toNat
      ((codeBytes (CodeTable.build s.symbolLengths)).getD · 0) := by
  have hlen := (codeBytes_length s.symbolLengths).trans (congrArg (4 * ·) (symbolLengths_length hn))
  obtain ⟨u, hu, he⟩ := emitBytes_ok (s := s.tableBuilt) hq hl hm _ (hlen ▸ hroom)
  exact ⟨u, by rw [buildCode_admitted hk, Act.bind_ok hu, engineSet_apply], hlen ▸ he⟩

/-- Where the words pass the capacity, they are written up to it. -/
theorem buildCode_overflow (ho : s.out.toNat ≤ s.lat.dstCap.toNat) (hroom : ¬HasRoom s (4 * s.lat.nsym.toNat)) :
    ∃ u, buildCode s = .raised .outputOverflow u ∧
      Emitted s.tableBuilt u (s.lat.dstCap.toNat - s.out.toNat) s.p.toNat
        ((codeBytes (CodeTable.build s.symbolLengths)).getD · 0) := by
  have hlen := (codeBytes_length s.symbolLengths).trans (congrArg (4 * ·) (symbolLengths_length hn))
  obtain ⟨u, hu, he⟩ := emitBytes_overflow (s := s.tableBuilt) hq hl hm _ ho (hlen ▸ hroom)
  exact ⟨u, by rw [buildCode_admitted hk, Act.bind_raised hu], he⟩

end

/-- Settles O33, by the bytes emitted, four for each word. -/
theorem huffBuildWritesCodes : Obligations.HuffBuildWritesCodes := by
  intro len s hlast hq hl hm hn hroom lens lengths hk
  have hnl : s.lat.nsym.toNat ≤ lens.length := by rwa [List.length_set]
  have hlen : lengths.length = s.lat.nsym.toNat := symbolLengths_length (s := s.pushLength len) hnl
  obtain ⟨u, hu, he⟩ := buildCode_ok (s := s.pushLength len) hk hq hl hm hnl hroom
  refine ⟨u, by rw [exec_hblen_last hlast.ge, hu, tokenEnd_ok], he.frame_p, he.emits, fun k hkn => ?_⟩
  have hw : outputSlice u (s.out.toNat + 4 * k) 4 = wordBytes ((codeWords lengths).getD k 0) := by
    rw [outputSlice, wordBytes]
    refine List.map_congr_left fun i hi => ?_
    have hi := List.mem_range.1 hi
    have hki : 4 * k + i < 4 * s.lat.nsym.toNat := by omega
    rw [Nat.add_assoc, ← wordBytes_getD _ hi, ← codeBytes_getD _ hi]
    exact he.bytes _ hki
  rw [hw, wordOfBytes_wordBytes, codeWords_getD hk (by omega)]

/-- Settles O34, by the byte's value, the Kraft sum and the room for the words. -/
theorem huffBuildErrors : Obligations.HuffBuildErrors := by
  refine ⟨fun b c d e s i hi => ?_, fun len s hlast hk => ?_, ?_⟩
  · simp only [invalidLengths, List.mem_cons, List.not_mem_nil, or_false] at hi
    rcases hi with rfl | rfl | rfl | rfl <;> rfl
  · rw [exec_hblen_last hlast, buildCode_overSubscribed (s := s.pushLength len) hk, tokenEnd_raised]
    rfl
  intro len s hlast hq hl hm hn ho hroom lens lengths hk
  have hnl : s.lat.nsym.toNat ≤ lens.length := by rwa [List.length_set]
  have hlen : lengths.length = s.lat.nsym.toNat := symbolLengths_length (s := s.pushLength len) hnl
  obtain ⟨u, hu, he⟩ := buildCode_overflow (s := s.pushLength len) hk hq hl hm hnl ho hroom
  have hout : u.out = s.lat.dstCap := BitVec.toNat_inj.1 (he.out.trans (Nat.add_sub_cancel' ho))
  refine ⟨u, by rw [exec_hblen_last hlast, hu, tokenEnd_raised], ?_, he.emits, fun j hj => ?_⟩
  · rw [← hout]
    exact he.frame_p
  have hj4 : j / 4 < lengths.length := by
    have hroom : ¬s.out.toNat + 4 * s.lat.nsym.toNat ≤ s.lat.dstCap.toNat := hroom
    omega
  have hb : outputByte u (s.out.toNat + j) = (wordBytes ((codeWords lengths).getD (j / 4) 0)).getD (j % 4) 0 := by
    rw [← codeBytes_getD _ (Nat.mod_lt j (by decide)), Nat.div_add_mod]
    exact he.bytes j hj
  have h256 : 2 ^ 8 = 256 := rfl
  rw [hb, wordBytes_getD _ (Nat.mod_lt j (by decide)), BitVec.toNat_ofNat, codeWords_getD hk hj4, pow_mul, h256]

end Sys2Proof.Machine
end

section
/-! The framing family: the zlib header, the block headers and the trailer (O8, O9, O10, O14), the running Adler-32 in
closed form (O59), and the stored block (O12, O13). -/

namespace Sys2Proof.Machine

/-! ### The running Adler-32 (R175, R176) -/

theorem adlerS1_toNat (s1 : BitVec 16) (b : Byte) : (adlerS1 s1 b).toNat = (s1.toNat + b.toNat) % 65521 := by
  rw [adlerS1, Config.adlerMod, BitVec.toNat_ofNat]
  omega

theorem adlerS2_toNat (s2 s1 : BitVec 16) : (adlerS2 s2 s1).toNat = (s2.toNat + s1.toNat) % 65521 := by
  rw [adlerS2, Config.adlerMod, BitVec.toNat_ofNat]
  omega

/-- One plus the sum of some bytes: the value of `s1` after them, before the reduction. -/
def onePlusSum (bytes : List Byte) : Nat := 1 + (bytes.map BitVec.toNat).sum

/-- The sum of `onePlusSum` over the prefixes that end in each byte: the value of `s2`, before the reduction. -/
def prefixSums (bytes : List Byte) : Nat := ((List.range bytes.length).map fun k => onePlusSum (bytes.take (k + 1))).sum

theorem onePlusSum_snoc (bytes : List Byte) (b : Byte) : onePlusSum (bytes ++ [b]) = onePlusSum bytes + b.toNat := by
  simp [onePlusSum, Nat.add_assoc]

theorem prefixSums_snoc (bytes : List Byte) (b : Byte) :
    prefixSums (bytes ++ [b]) = prefixSums bytes + onePlusSum (bytes ++ [b]) := by
  have hlen : (bytes ++ [b]).length = bytes.length + 1 := List.length_append
  have hpre : ∀ k ∈ List.range bytes.length,
      onePlusSum ((bytes ++ [b]).take (k + 1)) = onePlusSum (bytes.take (k + 1)) := fun k hk => by
    rw [List.take_append_of_le_length (List.mem_range.1 hk)]
  rw [prefixSums, hlen, List.range_succ, List.map_append, List.sum_append, List.map_congr_left hpre, List.map_singleton,
    List.sum_singleton, List.take_of_length_le hlen.le, prefixSums]

/-- Settles O59, by induction on the bytes from the last one back. -/
theorem adlerIsTheSumOfPrefixSums : Obligations.AdlerIsTheSumOfPrefixSums := by
  intro bytes
  show (adlerRun (1, 0) bytes).1.toNat = onePlusSum bytes % 65521 ∧
    (adlerRun (1, 0) bytes).2.toNat = prefixSums bytes % 65521
  induction bytes using List.reverseRecOn with
  | nil => decide
  | append_singleton bytes b ih =>
    obtain ⟨h1, h2⟩ := ih
    have hs1 : (adlerS1 (adlerRun (1, 0) bytes).1 b).toNat = onePlusSum (bytes ++ [b]) % 65521 := by
      rw [adlerS1_toNat, h1, Nat.mod_add_mod, onePlusSum_snoc]
    rw [adlerRun_snoc]
    exact ⟨hs1, by rw [adlerS2_toNat, hs1, h2, ← Nat.add_mod, prefixSums_snoc]⟩

/-! ### The zlib header (R174) -/

theorem headerOk_iff (cmf flg : Byte) : headerOk cmf flg = true ↔
    cmf.toNat % 16 = 8 ∧ flg.toNat / 32 % 2 = 0 ∧ (cmf.toNat * 256 + flg.toNat) % 31 = 0 := by
  simp only [headerOk, headerMethodOk, headerNoDict, headerCheckOk, Bool.and_eq_true, beq_iff_eq, and_assoc]

theorem exec_zhdr_admitted {cmf flg : Byte} (h : headerOk cmf flg = true) (s : State) :
    exec (.zhdr cmf flg) s = .next (s.setPhase .blockHeader) := congrArg tokenEnd (if_pos h)

theorem exec_zhdr_refused {cmf flg : Byte} (h : ¬headerOk cmf flg = true) (s : State) :
    exec (.zhdr cmf flg) s = .next (s.complete .invalidZlibHeader) := congrArg tokenEnd (if_neg h)

/-- Settles O8: the check of the header is the three tests. -/
theorem zlibHeaderChecked : Obligations.ZlibHeaderChecked := by
  intro cmf flg s
  rw [← headerOk_iff]
  exact ⟨fun h => exec_zhdr_admitted h s, fun h => exec_zhdr_refused h s⟩

/-! ### The block headers (R171, R173) -/

/-- The count of blocks stays at its largest value. -/
theorem saturatingSucc_eq (n : BitVec 16) :
    BitVec.ofNat 16 (min (n.toNat + 1) 0xFFFF) = if n = 0xFFFF then 0xFFFF else n + 1 := by
  split
  · next h => rw [h]; rfl
  · next h =>
    have hn : n.toNat ≠ 0xFFFF := fun he => h (BitVec.eq_of_toNat_eq he)
    rw [min_eq_left (by omega), BitVec.ofNat_add, BitVec.ofNat_toNat, BitVec.setWidth_eq]
    rfl

theorem latchHeader_eq (final : Bool) (type : BitVec 2) (s : State) : s.latchHeader final type =
    { s with bfinal := final, btype := type, hdrvalid := true,
             nblocks := if s.nblocks = 0xFFFF then 0xFFFF else s.nblocks + 1 } := by
  rw [State.latchHeader, saturatingSucc_eq]

theorem exec_bodyBlock {final : Bool} {c : Instr × BitVec 2 × Phase} (hc : c ∈ bodyBlocks final) (s : State) :
    exec c.1 s = .next ((s.latchHeader final c.2.1).setPhase c.2.2) := by
  simp only [bodyBlocks, List.mem_cons, List.not_mem_nil, or_false] at hc
  rcases hc with rfl | rfl <;> rfl

theorem exec_blockFixed (final : Bool) (s : State) :
    exec (.blockFixed final) s = .next (((s.latchHeader final 1).fixedTrees).setPhase .litLenSymbol) := rfl

theorem exec_blockReserved (final : Bool) (s : State) :
    exec (.blockReserved final) s = .next ((s.latchHeader final 3).complete .invalidBlockType) := rfl

/-- Settles O9: every header latches alike, and a fixed block then builds its trees. -/
theorem blockHeaderLatchesAndDispatches : Obligations.BlockHeaderLatchesAndDispatches := by
  refine fun final s => ⟨fun c hc => ?_, ?_⟩
  · rw [exec_bodyBlock hc, latchHeader_eq]
    rfl
  · rw [exec_blockFixed, latchHeader_eq]
    rfl

/-- Settles O10: the raise keeps the latched header. -/
theorem reservedBlockTypeRaises : Obligations.ReservedBlockTypeRaises := fun final s => by
  rw [exec_blockReserved, latchHeader_eq]

/-! ### The trailer (R178) -/

theorem eq_adlerRead_iff (a : Word) (s : State) : a = adlerRead s ↔ a.toNat = s.s2.toNat * 65536 + s.s1.toNat := by
  rw [← adlerRead_toNat, BitVec.toNat_inj]

theorem exec_trailer_equal {a : Word} {s : State} (h : a = adlerRead s) :
    exec (.trailer a) s = .next (State.complete .ok { s with trailer := a }) := congrArg tokenEnd (if_pos h)

theorem exec_trailer_mismatch {a : Word} {s : State} (h : a ≠ adlerRead s) :
    exec (.trailer a) s = .next (State.complete .checksumMismatch { s with trailer := a }) :=
  congrArg tokenEnd (if_neg h)

/-- Settles O14: the value is compared with the ADLER register, whose number is `s2·65536 + s1`. -/
theorem trailerChecked : Obligations.TrailerChecked := by
  intro a s
  rw [Ne, ← eq_adlerRead_iff]
  exact ⟨exec_trailer_equal, exec_trailer_mismatch⟩

/-! ### The bytes of a stored block (R172, R175) -/

theorem copyStored_add (m n : Nat) : copyStored (m + n) = (copyStored m).bind fun _ => copyStored n := by
  induction m with
  | zero => rw [Nat.zero_add]; rfl
  | succ m ih => rw [Nat.succ_add, copyStored, copyStored, ih]; simp only [Act.bind_assoc]

/-- Moving the bit cursor on after a run of output. -/
theorem Emitted.moveCursor {s t : State} {n q : Nat} {g : Nat → Byte} (h : Emitted s t n q g) (q' : Nat) :
    Emitted s (t.setP q') n q' g :=
  { h with frame := congrArg (State.setP q') h.frame }

/-- Input byte `k` from the bit cursor on. -/
def nextByte (s : State) (k : Nat) : Byte := BitVec.ofNat 8 (inputField s (s.p.toNat + 8 * k) 8)

section
variable {s : State} (hq : Quiet s) (hl : LegalRanges s.lat) (hm : Memory.wf s.mem) {m : Nat}
  (hb : HasBits s (8 * m)) (hr : HasRoom s m)
include hq hl hm hb hr

/-- With the bytes in the input and room for them, all are copied. -/
theorem copyStored_ok :
    ∃ u, copyStored m s = .ok () u ∧ Emitted s u m (s.p.toNat + 8 * m) (nextByte s) := by
  have h := copyStored_run hq hl (fun _ => rfl) m (Emitted.refl hm (nextByte s))
  rw [Nat.zero_add] at h
  exact h hb hr

/-- A copy whose first `m` bytes succeed raises what byte `m` raises. -/
theorem copyStored_raises {n : Nat} (hmn : m < n) {e : ErrCode} {f : State → State}
    (hf : ∀ u, Emitted s u m (s.p.toNat + 8 * m) (nextByte s) →
      ((readBits 8).bind fun b => emit (BitVec.ofNat 8 b)) u = .raised e (f u)) :
    ∃ u, copyStored n s = .raised e (f u) ∧ Emitted s u m (s.p.toNat + 8 * m) (nextByte s) := by
  obtain ⟨u, hu, he⟩ := copyStored_ok hq hl hm hb hr
  obtain ⟨k, rfl⟩ := Nat.exists_eq_add_of_lt hmn
  refine ⟨u, ?_, he⟩
  rw [Nat.add_assoc, copyStored_add, Act.bind_ok hu, copyStored, ← Act.bind_assoc, Act.bind_raised (hf u he)]

theorem copyStored_truncated {n : Nat} (hmn : m < n) (hend : ¬HasBits s (8 * (m + 1))) :
    ∃ u, copyStored n s = .raised .truncated u ∧ Emitted s u m (s.p.toNat + 8 * m) (nextByte s) := by
  refine copyStored_raises hq hl hm hb hr hmn (f := id) fun u he => ?_
  have hmiss : ¬HasBits u 8 := by
    rwa [HasBits, he.p (bits_lt hl.1 hb), inputBits, he.lat, Nat.add_assoc, ← Nat.mul_succ]
  exact Act.bind_raised (readBits_truncated (he.quiet hq) hmiss)

theorem copyStored_overflow {n : Nat} (hmn : m < n) (hnext : HasBits s (8 * (m + 1))) (hfull : ¬HasRoom s (m + 1)) :
    ∃ u, copyStored n s = .raised .outputOverflow u ∧ Emitted s u m (s.p.toNat + 8 * (m + 1)) (nextByte s) := by
  obtain ⟨u, hu, he⟩ := copyStored_raises hq hl hm hb hr hmn
    (f := State.setP (s.p.toNat + 8 * (m + 1))) fun u he => by
      have hfull' : ¬HasRoom (u.setP (s.p.toNat + 8 * (m + 1))) 1 := by
        rwa [HasRoom, setP_out, setP_lat, he.lat, he.out, Nat.add_assoc]
      rw [Act.bind_ok (he.readBits hq hl hr hnext)]
      exact emit_overflow (s := u.setP _) (he.quiet hq) hfull' _
  exact ⟨_, hu, he.moveCursor _⟩

end

/-! ### STORED_LEN (R172) -/

theorem storedOk_iff (len nlen : BitVec 16) : storedOk len nlen = true ↔ len.toNat + nlen.toNat = 0xFFFF := beq_iff_eq

theorem exec_storedLen_admitted {len nlen : BitVec 16} (h : len.toNat + nlen.toNat = 0xFFFF) (s : State) :
    exec (.storedLen len nlen) s =
      tokenEnd (((copyStored len.toNat).bind fun _ => engineSet State.blockEnd) s) :=
  congrArg tokenEnd (if_pos ((storedOk_iff len nlen).2 h))

theorem exec_storedLen_refused {len nlen : BitVec 16} (h : len.toNat + nlen.toNat ≠ 0xFFFF) (s : State) :
    exec (.storedLen len nlen) s = .next (s.complete .invalidStoredBlock) :=
  congrArg tokenEnd (if_neg (mt (storedOk_iff len nlen).1 h))

theorem exec_storedLen_raised {len nlen : BitVec 16} (h : len.toNat + nlen.toNat = 0xFFFF) {s u : State} {e : ErrCode}
    (hu : copyStored len.toNat s = .raised e u) : exec (.storedLen len nlen) s = .next (u.complete e) := by
  rw [exec_storedLen_admitted h, Act.bind_raised hu, tokenEnd_raised]

/-- Settles O12: the copy runs to its end, and the end of the block only moves the position. -/
theorem storedBlockCopiesItsBytes : Obligations.StoredBlockCopiesItsBytes := by
  intro len nlen s hlen hq hl hm hb hr
  obtain ⟨u, hu, he⟩ := copyStored_ok hq hl hm hb hr
  refine ⟨u.blockEnd, ?_, congrArg State.blockEnd he.frame, he.emits, he.bytes⟩
  rw [exec_storedLen_admitted hlen, Act.bind_ok hu, engineSet_apply, tokenEnd_ok]

/-- Settles O13: LEN and NLEN are tested first; then the copy stops at byte `m`, which is missing or has no room. -/
theorem storedBlockErrors : Obligations.StoredBlockErrors := by
  refine ⟨fun _ _ s h => exec_storedLen_refused h s, fun len nlen m s hlen hmn hq hl hm hb hr => ⟨?_, ?_⟩⟩
  · intro hend
    obtain ⟨u, hu, he⟩ := copyStored_truncated hq hl hm hb hr hmn hend
    exact ⟨u, exec_storedLen_raised hlen hu, he.frame, he.emits, he.bytes⟩
  · intro hnext hfull
    obtain ⟨u, hu, he⟩ := copyStored_overflow hq hl hm hb hr hmn hnext hfull
    exact ⟨u, exec_storedLen_raised hlen hu, he.frame, he.emits, he.bytes⟩

end Sys2Proof.Machine
end

section
/-! The Huffman-block family, first part: the header of a dynamic block, with its code-length code (O16, O17) and its
code-length symbols (O18, O19, O20). -/

namespace Sys2Proof.Machine

/-! ### The code-length code (R210, R211) -/

theorem setP_p_self (s : State) : s.setP s.p.toNat = s := by
  refine setP_self ?_
  rw [BitVec.ofNat_toNat, BitVec.setWidth_eq]

theorem readFields_add (n j k : Nat) : readFields n (j + k) =
    (readFields n j).bind fun front => (readFields n k).bind fun rest => .pure (front ++ rest) := by
  induction j with
  | zero =>
    rw [Nat.zero_add]
    funext s
    show _ = ((readFields n k).bind Act.pure) s
    cases h : readFields n k s with
    | ok v t => rw [Act.bind_ok h, Act.pure_apply]
    | raised e t => rw [Act.bind_raised h]
  | succ j ih =>
    rw [Nat.succ_add, readFields, readFields, ih]
    simp only [Act.bind_assoc]
    rfl

section
variable {s : State} (hq : Quiet s) (hs : s.lat.srcLen.toNat ≤ Config.srcLenMax) {n m : Nat} (hb : HasBits s (n * m))
include hq hs hb

theorem readFields_ok : readFields n m s =
    .ok ((List.range m).map fun i => inputField s (s.p.toNat + n * i) n) (s.setP (s.p.toNat + n * m)) := by
  have h := readFields_run hq hs n m s.p.toNat hb
  rwa [setP_p_self] at h

/-- Field `m` is missing, and the fields before it have been read. -/
theorem readFields_truncated {k : Nat} (hmk : m < k) (hend : ¬HasBits s (n * (m + 1))) :
    readFields n k s = .raised .truncated (s.setP (s.p.toNat + n * m)) := by
  obtain ⟨j, rfl⟩ := Nat.exists_eq_add_of_lt hmk
  have hmiss : ¬HasBits (s.setP (s.p.toNat + n * m)) n := by
    rwa [HasBits, setP_toNat (bits_lt hs hb), Nat.add_assoc, ← Nat.mul_succ]
  rw [Nat.add_assoc, readFields_add, Act.bind_ok (readFields_ok hq hs hb), readFields, Act.bind_assoc,
    Act.bind_raised (readBits_truncated (s := s.setP _) hq hmiss)]

end

/-- The code-length sequence begins: the counts are known, and `n = 0` (R212). -/
def State.beginLengths (hlit hdist : BitVec 5) (s : State) : State :=
  { s with hlit := hlit.toNat + 257, hdist := hdist.toNat + 1, clCount := 0, phase := .clSymbol }

theorem exec_dynHdr_admitted {hlit : BitVec 5} (h : hlit.toNat + 257 ≤ 286) (hdist : BitVec 5) (hclen : BitVec 4)
    (s : State) : exec (.dynHdr hlit hdist hclen) s = tokenEnd
      (((readCodeLengthCode (hclen.toNat + 4)).bind fun _ => engineSet (State.beginLengths hlit hdist)) s) :=
  congrArg tokenEnd (if_pos (decide_eq_true h))

theorem exec_dynHdr_refused {hlit : BitVec 5} (h : 286 < hlit.toNat + 257) (hdist : BitVec 5) (hclen : BitVec 4)
    (s : State) : exec (.dynHdr hlit hdist hclen) s = .next (s.complete .invalidDynamicBlock) :=
  congrArg tokenEnd (if_neg fun ho => Nat.not_le.2 h (of_decide_eq_true ho))

theorem exec_dynHdr_raised {hlit : BitVec 5} (h : hlit.toNat + 257 ≤ 286) {hdist : BitVec 5} {hclen : BitVec 4}
    {s u : State} {e : ErrCode} (hu : readCodeLengthCode (hclen.toNat + 4) s = .raised e u) :
    exec (.dynHdr hlit hdist hclen) s = .next (u.complete e) := by
  rw [exec_dynHdr_admitted h, Act.bind_raised hu, tokenEnd_raised]

section
variable {s u : State} {n : Nat} {values : List Nat} (h : readFields 3 n s = .ok values u)
include h

theorem readCodeLengthCode_built (hk : kraft (codeLengthLengths values) ≤ 2 ^ 15) :
    readCodeLengthCode n s = .ok () { u with tcl := CodeTable.build (codeLengthLengths values) } := by
  rw [readCodeLengthCode, Act.bind_ok h, (overSubscribed_eq_false _).2 hk, if_neg Bool.false_ne_true]

theorem readCodeLengthCode_overSubscribed (hk : 2 ^ 15 < kraft (codeLengthLengths values)) :
    readCodeLengthCode n s = .raised .invalidDynamicBlock u := by
  rw [readCodeLengthCode, Act.bind_ok h, if_pos ((overSubscribed_iff _).2 hk)]

end

/-- Settles O16: the values are read, and the Kraft sum decides. -/
theorem dynHeaderReadsCodeLengthCode : Obligations.DynHeaderReadsCodeLengthCode := by
  intro hlit hdist hclen s hlit_le hq hs hb cl q
  have hread := readFields_ok hq hs hb
  refine ⟨fun hk => ?_, fun hk => ?_⟩
  · rw [exec_dynHdr_admitted hlit_le, Act.bind_ok (readCodeLengthCode_built hread hk)]
    rfl
  · exact exec_dynHdr_raised hlit_le (readCodeLengthCode_overSubscribed hread hk)

/-- Settles O17: HLIT is tested first; then value `m` is missing. -/
theorem dynHeaderErrors : Obligations.DynHeaderErrors := by
  refine fun hlit hdist hclen s => ⟨fun h => exec_dynHdr_refused h _ _ s, fun m hlit_le hq hs hm hb hend => ?_⟩
  exact exec_dynHdr_raised hlit_le (Act.bind_raised (readFields_truncated hq hs hb hm hend))

/-! ### The code-length symbols (R213 to R216) -/

/-- The code-length symbols 0 to 15, in order. -/
theorem directRuns_map : (codeLengthRuns.take 16).map (fun c => (exec c.1, c.2)) = (List.range 16).map fun v =>
    ((fun s => tokenEnd (clDirect (BitVec.ofNat 4 v) s)), 0, 1, fun _ => BitVec.ofNat 4 v) := rfl

theorem clRun_past {s : State} {r : Nat} (h : s.hlit + s.hdist < s.clCount + r) (v : BitVec 4) :
    clRun r v s = .raised .invalidDynamicBlock s := if_pos h

theorem clRun_fits {s : State} {r : Nat} (h : s.clCount + r ≤ s.hlit + s.hdist) (v : BitVec 4) :
    clRun r v s = clNext (s.appendLens r v) := if_neg (Nat.not_lt.2 h)

theorem clNext_goesOn {s : State} (h : s.clCount < s.hlit + s.hdist) : clNext s = .ok () s := if_pos h

theorem clNext_ends {s : State} (h : s.clCount = s.hlit + s.hdist) : clNext s = buildDynamicTrees s :=
  if_neg (Nat.not_lt.2 h.ge)

section
variable {c : Instr × Nat × Nat × (State → BitVec 4)} {s : State}

/-- A code-length symbol gives its own length with no extra bits, or is one of the three that repeat a length. -/
theorem codeLengthRuns_cases (h : c ∈ codeLengthRuns) :
    (∃ v, exec c.1 = (fun s => tokenEnd (clDirect v s)) ∧ c.2 = (0, 1, fun _ => v)) ∨
      c ∈ codeLengthRuns.drop 16 := by
  rw [← List.take_append_drop 16 codeLengthRuns, List.mem_append] at h
  refine h.imp_left fun h => ?_
  have hm := List.mem_map_of_mem (f := fun c : Instr × Nat × Nat × (State → BitVec 4) => (exec c.1, c.2)) h
  rw [directRuns_map] at hm
  obtain ⟨v, -, hv⟩ := List.mem_map.1 hm
  obtain ⟨hx, hc⟩ := Prod.mk.inj hv
  exact ⟨_, hx.symm, hc.symm⟩

/-- A symbol that repeats a length reads its extra bits and runs on. -/
theorem exec_repeat (h : c ∈ codeLengthRuns.drop 16) (hprev : c.1 = .clRepPrev → 0 < s.clCount) : exec c.1 s =
    tokenEnd (((readBits c.2.1).bind fun x s => clRun (c.2.2.1 + x) (c.2.2.2 s) s) s) := by
  simp only [codeLengthRuns, List.drop_succ_cons, List.drop_zero, List.mem_cons, List.not_mem_nil, or_false] at h
  rcases h with rfl | rfl | rfl
  · exact congrArg tokenEnd (if_neg (Nat.ne_of_gt (hprev rfl)))
  · rfl
  · rfl

/-- Moving the cursor does not change the length that a symbol writes. -/
theorem codeLengthRuns_value_setP (hc : c ∈ codeLengthRuns) (s : State) (q : Nat) :
    c.2.2.2 (s.setP q) = c.2.2.2 s := by
  have h : codeLengthRuns.map (fun c => c.2.2.2 (s.setP q)) = codeLengthRuns.map fun c => c.2.2.2 s := rfl
  exact List.map_inj_left.1 h c hc

theorem exec_repeat_read (h : c ∈ codeLengthRuns.drop 16) (hprev : c.1 = .clRepPrev → 0 < s.clCount) (hq : Quiet s)
    (hb : HasBits s c.2.1) : exec c.1 s = tokenEnd
      (clRun (c.2.2.1 + inputField s s.p.toNat c.2.1) (c.2.2.2 s) (s.setP (s.p.toNat + c.2.1))) := by
  rw [exec_repeat h hprev, Act.bind_ok (readBits_ok hq hb), codeLengthRuns_value_setP (List.mem_of_mem_drop h)]
  rfl

/-- A code-length symbol whose run fits writes it, and the sequence goes on or ends. -/
theorem exec_codeLengthRun (hq : Quiet s) (hc : c ∈ codeLengthRuns) (hprev : c.1 = .clRepPrev → 0 < s.clCount)
    (hb : HasBits s c.2.1) (hfit : s.clCount + (c.2.2.1 + inputField s s.p.toNat c.2.1) ≤ s.hlit + s.hdist) :
    exec c.1 s = tokenEnd (clNext ((s.setP (s.p.toNat + c.2.1)).appendLens
      (c.2.2.1 + inputField s s.p.toNat c.2.1) (c.2.2.2 s))) := by
  rcases codeLengthRuns_cases hc with ⟨v, hx, hv⟩ | hrep
  · rw [hx, hv, Nat.add_zero, setP_p_self]
    rfl
  · rw [exec_repeat_read hrep hprev hq hb, clRun_fits (s := s.setP _) hfit]

end

/-- Settles O18: the run is written, and the sequence goes on. -/
theorem codeLengthRunsFillLengths : Obligations.CodeLengthRunsFillLengths := by
  intro s hq _ _ c hc hprev hb r hlt
  refine ⟨(s.setP (s.p.toNat + c.2.1)).appendLens r (c.2.2.2 s), ?_, rfl, setLens_length .., setLens_getD r s.lens _ _⟩
  rw [exec_codeLengthRun hq hc hprev hb hlt.le, clNext_goesOn hlt, tokenEnd_ok]

theorem exec_clRepPrev_refused {s : State} (h : s.clCount = 0) :
    exec .clRepPrev s = .next (s.complete .invalidDynamicBlock) := congrArg tokenEnd (if_pos h)

/-- Settles O19: only the symbols that repeat a length have extra bits. -/
theorem codeLengthRunErrors : Obligations.CodeLengthRunErrors := by
  refine fun s hq => ⟨exec_clRepPrev_refused, fun c hc hn hprev => ?_⟩
  rcases codeLengthRuns_cases hc with ⟨v, -, hv⟩ | hrep
  · rw [hv] at hn
    exact absurd hn (Nat.lt_irrefl 0)
  · refine ⟨fun hend => ?_, fun hb hpast => ?_⟩
    · rw [exec_repeat hrep hprev, Act.bind_raised (readBits_truncated hq hend), tokenEnd_raised]
    · rw [exec_repeat_read hrep hprev hq hb, clRun_past (s := s.setP _) hpast]
      rfl

/-! ### The two trees (R217) -/

/-- The lengths of the sequence give the two trees: symbol 256 has a code, and neither set is over-subscribed. -/
def TreesAdmitted (s : State) : Prop :=
  (litLenLengths s).getD 256 0 ≠ 0 ∧ kraft (litLenLengths s) ≤ 2 ^ 15 ∧ kraft (distLengths s) ≤ 2 ^ 15

theorem buildDynamicTrees_admitted {s : State} (h : TreesAdmitted s) : buildDynamicTrees s =
    .ok () { s with tll := CodeTable.build (litLenLengths s), td := CodeTable.build (distLengths s),
                    phase := .litLenSymbol } := by
  obtain ⟨heob, hll, hdd⟩ := h
  have heob : ((litLenLengths s).getD 256 0).toNat ≠ 0 := fun h0 => heob (BitVec.eq_of_toNat_eq h0)
  rw [buildDynamicTrees, if_neg heob, (overSubscribed_eq_false _).2 hll, (overSubscribed_eq_false _).2 hdd]
  rfl

theorem buildDynamicTrees_refused {s : State} (h : ¬TreesAdmitted s) :
    buildDynamicTrees s = .raised .invalidDynamicBlock s := by
  unfold buildDynamicTrees
  split
  · rfl
  split
  · rfl
  split
  · rfl
  next heob hll hdd =>
    rw [Bool.not_eq_true, overSubscribed_eq_false] at hll hdd
    exact absurd ⟨fun h0 => heob (congrArg BitVec.toNat h0), hll, hdd⟩ h

/-- Settles O20: the run that ends the sequence is written, and the lengths are tested. -/
theorem lastLengthBuildsTrees : Obligations.LastLengthBuildsTrees := by
  intro s hq _ _ _ _ _ _ c hc hprev hb r hend
  refine ⟨setLens s.lens s.clCount r (c.2.2.2 s), setLens_length .., setLens_getD r s.lens _ _, ?_⟩
  rw [exec_codeLengthRun hq hc hprev hb hend.le, clNext_ends hend]
  refine ⟨fun h => ?_, fun h => ?_⟩
  · exact congrArg tokenEnd (buildDynamicTrees_admitted (s := (s.setP _).appendLens r _) h)
  · exact congrArg tokenEnd (buildDynamicTrees_refused (s := (s.setP _).appendLens r _) h)

end Sys2Proof.Machine
end

section
/-! The Huffman-block family, second part: literals, end of block and the reserved symbols (O21, O22, O24), and the
matches (O25, O26). -/

namespace Sys2Proof.Machine

/-! ### Literals and the end of the block (R221, R222) -/

theorem destAddr_out (s : State) : destAddr s s.out.toNat = (s.lat.dstAddr + s.out).toNat := by
  rw [destAddr, BitVec.ofNat_toNat, BitVec.setWidth_eq]

/-- The state after a byte, with its sums as numbers (R175). -/
theorem emitted_eq (b : Byte) (s : State) : s.emitted b =
    { s with mem := (s.emitted b).mem, out := s.out + 1, s1 := BitVec.ofNat 16 ((s.s1.toNat + b.toNat) % 65521),
             s2 := BitVec.ofNat 16 ((s.s2.toNat + (s.s1.toNat + b.toNat) % 65521) % 65521) } := by
  rw [State.emitted, BitVec.ofNat_add, BitVec.ofNat_toNat, BitVec.setWidth_eq, adlerS2, adlerS1_toNat]
  rfl

/-- Settles O21: the room decides, and one byte is written. -/
theorem literalEmitsItsByte : Obligations.LiteralEmitsItsByte := by
  intro b s hq
  rw [← destAddr_out]
  refine ⟨fun hroom hm => ?_, fun hfull => congrArg tokenEnd (emit_overflow hq (Nat.not_lt.2 hfull) b)⟩
  exact ⟨s.emitted b, congrArg tokenEnd (emit_ok hq hroom b), emitted_eq b s, memRead_memWrite_same hm _ _,
    fun _ ha => memRead_memWrite_other _ ha⟩

theorem exec_eob (s : State) : exec .eob s = .next s.blockEnd := rfl

theorem blockEnd_final {s : State} (h : s.bfinal = true) : s.blockEnd = s.setPhase .trailer :=
  congrArg s.setPhase (if_pos h)

theorem blockEnd_notFinal {s : State} (h : s.bfinal = false) : s.blockEnd = s.setPhase .blockHeader :=
  congrArg s.setPhase (if_neg (Bool.eq_false_iff.1 h))

/-- Settles O22: the end of a block looks at BFINAL. -/
theorem endOfBlockMovesOn : Obligations.EndOfBlockMovesOn := by
  refine fun s => ⟨fun h => ?_, fun h => ?_⟩
  · rw [exec_eob, blockEnd_final h, State.setPhase]
  · rw [exec_eob, blockEnd_notFinal h, State.setPhase]

/-- Settles O24: each of the four meanings is a raise. -/
theorem reservedSymbolsRaise : Obligations.ReservedSymbolsRaise := by
  intro s i hi
  simp only [reservedSymbols, List.mem_cons, List.not_mem_nil, or_false] at hi
  rcases hi with rfl | rfl | rfl | rfl <;> rfl

/-! ### The copy of a match (R231) -/

theorem copyMatch_succ (dist n : Nat) (s : State) : copyMatch dist (n + 1) s =
    ((outByte (s.out.toNat - dist)).bind fun b => (emit b).bind fun _ => copyMatch dist n) s := rfl

theorem copyMatch_add (dist m n : Nat) :
    copyMatch dist (m + n) = (copyMatch dist m).bind fun _ => copyMatch dist n := by
  induction m with
  | zero => rw [Nat.zero_add]; rfl
  | succ m ih =>
    funext s
    show _ = (((outByte (s.out.toNat - dist)).bind fun b => (emit b).bind fun _ => copyMatch dist m).bind
      fun _ => copyMatch dist n) s
    rw [Nat.succ_add, copyMatch_succ, ih]
    simp only [Act.bind_assoc]

/-- Byte `i` of a match: the last `dist` output bytes, over and over. -/
def matchByte (s : State) (dist i : Nat) : Byte := outputByte s (s.out.toNat - dist + i % dist)

section
variable {s : State} (hq : Quiet s) (hl : LegalRanges s.lat) (hm : Memory.wf s.mem) {dist : Nat} (hd : 1 ≤ dist)
  (hdo : dist ≤ s.out.toNat)
include hq hl hm hd hdo

theorem copyMatch_ok {n : Nat} (hr : HasRoom s n) :
    ∃ u, copyMatch dist n s = .ok () u ∧ Emitted s u n s.p.toNat (matchByte s dist) := by
  have h := copyMatch_run hq hl hd hdo n (Emitted.refl hm (matchByte s dist))
  rw [Nat.zero_add] at h
  exact h hr

/-- A match that passes the capacity is copied up to it. -/
theorem copyMatch_overflow {n : Nat} (ho : s.out.toNat ≤ s.lat.dstCap.toNat) (hr : ¬HasRoom s n) :
    ∃ u, copyMatch dist n s = .raised .outputOverflow u ∧
      Emitted s u (s.lat.dstCap.toNat - s.out.toNat) s.p.toNat (matchByte s dist) := by
  have hr : ¬s.out.toNat + n ≤ s.lat.dstCap.toNat := hr
  have hlt : s.lat.dstCap.toNat - s.out.toNat < n := by omega
  obtain ⟨u, hu, he⟩ := copyMatch_ok hq hl hm hd hdo (Nat.add_sub_cancel' ho).le
  obtain ⟨k, hk⟩ := Nat.exists_eq_add_of_lt hlt
  have hfull : ¬HasRoom u 1 := by rw [HasRoom, he.lat, he.out]; omega
  refine ⟨u, ?_, he⟩
  rw [hk, Nat.add_assoc, copyMatch_add, Act.bind_ok hu, copyMatch_succ, Act.bind_ok (outByte_ok (he.quiet hq) _),
    Act.bind_raised (emit_overflow (he.quiet hq) hfull _)]

end

/-! ### The distance symbols (R91, R227, R232) -/

/-- Each distance symbol runs `distSymbol` of its place in the table, which has its base and its extra bits. -/
theorem distanceTable_map : distanceTable.map (fun e => (exec e.1, e.2)) =
    (List.range 30).map fun d => ((fun s => tokenEnd (distSymbol d s)), distanceBaseOf d, distanceExtraOf d) := rfl

theorem distanceTable_base_pos : ∀ e ∈ distanceTable, 1 ≤ e.2.1 := by decide

section
variable {e : Instr × Nat × Nat} (he : e ∈ distanceTable)
include he

theorem exec_distanceTable :
    ∃ d, (∀ s, exec e.1 s = tokenEnd (distSymbol d s)) ∧ distanceBaseOf d = e.2.1 ∧ distanceExtraOf d = e.2.2 := by
  have hm := List.mem_map_of_mem (f := fun e : Instr × Nat × Nat => (exec e.1, e.2)) he
  rw [distanceTable_map] at hm
  obtain ⟨d, -, hd⟩ := List.mem_map.1 hm
  simp only [Prod.ext_iff] at hd
  obtain ⟨hx, hbase, hextra⟩ := hd
  exact ⟨d, fun s => (congrFun hx s).symm, hbase, hextra⟩

variable {s : State} (hq : Quiet s)
include hq

theorem exec_distance_truncated (hb : ¬HasBits s e.2.2) : exec e.1 s = .next (s.complete .truncated) := by
  obtain ⟨d, hx, -, hextra⟩ := exec_distanceTable he
  rw [← hextra] at hb
  rw [hx, distSymbol, Act.bind_raised (readBits_truncated hq hb), tokenEnd_raised]

variable (hb : HasBits s e.2.2)
include hb

theorem exec_distance_outOfRange (hfar : s.out.toNat < e.2.1 + inputField s s.p.toNat e.2.2) :
    exec e.1 s = .next ((s.setP (s.p.toNat + e.2.2)).complete .distanceOutOfRange) := by
  obtain ⟨d, hx, hbase, hextra⟩ := exec_distanceTable he
  rw [← hbase, ← hextra] at hfar
  rw [← hextra] at hb ⊢
  rw [hx, distSymbol, Act.bind_ok (readBits_ok hq hb)]
  exact congrArg tokenEnd (if_pos hfar)

/-- A distance inside the output: the match is copied, and the next symbol follows. -/
theorem exec_distance_copies (hnear : e.2.1 + inputField s s.p.toNat e.2.2 ≤ s.out.toNat) : exec e.1 s =
    tokenEnd (((copyMatch (e.2.1 + inputField s s.p.toNat e.2.2) s.matchLen).bind fun _ =>
      engineSet (State.setPhase .litLenSymbol)) (s.setP (s.p.toNat + e.2.2))) := by
  obtain ⟨d, hx, hbase, hextra⟩ := exec_distanceTable he
  rw [← hbase, ← hextra] at hnear ⊢
  rw [← hextra] at hb
  rw [hx, distSymbol, Act.bind_ok (readBits_ok hq hb)]
  exact congrArg tokenEnd (if_neg (Nat.not_lt.2 hnear))

end

/-- Settles O25: the extra bits are read, and the match is copied to its end. -/
theorem matchRepeatsItsPeriod : Obligations.MatchRepeatsItsPeriod := by
  intro s hq hl hm e he hb dist hnear hr
  have hd : 1 ≤ dist := Nat.le_add_right_of_le (distanceTable_base_pos e he)
  obtain ⟨u, hu, hem⟩ := copyMatch_ok (s := s.setP (s.p.toNat + e.2.2)) hq hl hm hd hnear hr
  refine ⟨u.setPhase .litLenSymbol, ?_, congrArg (State.setPhase .litLenSymbol) hem.frame_p, hem.emits, hem.bytes⟩
  rw [exec_distance_copies he hq hb hnear, Act.bind_ok hu, engineSet_apply, tokenEnd_ok]

/-- Settles O26: the extra bits, the distance and the room are tested in this order. -/
theorem matchErrors : Obligations.MatchErrors := by
  refine fun s hq e he => ⟨exec_distance_truncated he hq, fun hb => ⟨exec_distance_outOfRange he hq hb, ?_⟩⟩
  intro hnear hl hm ho hr
  have hd : 1 ≤ e.2.1 + inputField s s.p.toNat e.2.2 := Nat.le_add_right_of_le (distanceTable_base_pos e he)
  obtain ⟨v, hv, hem⟩ := copyMatch_overflow (s := s.setP (s.p.toNat + e.2.2)) hq hl hm hd hnear ho hr
  have hout : v.out = s.lat.dstCap := BitVec.toNat_inj.1 (hem.out.trans (Nat.add_sub_cancel' ho))
  refine ⟨v, ?_, ?_, hem.emits, hem.bytes⟩
  · rw [exec_distance_copies he hq hb hnear, Act.bind_raised hv, tokenEnd_raised]
  · rw [← hout]
    exact hem.frame_p

end Sys2Proof.Machine
end

section
/-! The unfilter family: the Paeth predictor (O31), the rows of the five filter types and of the illegal ones (O27, O28,
O29), and the round trip of a row (O30). -/

namespace Sys2Proof.Machine

/-! ### The Paeth predictor (R243) -/

/-- Settles O31, by the two tests of the predictor. -/
theorem paethPicksNearest : Obligations.PaethPicksNearest := by
  intro a b c dist
  have hp : paeth a b c = if dist a ≤ dist b ∧ dist a ≤ dist c then a else if dist b ≤ dist c then b else c := rfl
  rw [hp]
  by_cases ha : dist a ≤ dist b ∧ dist a ≤ dist c
  · simp [ha]
  · by_cases hb : dist b ≤ dist c
    · have hab : dist b ≤ dist a := by omega
      simp [ha, hb, hab]
    · have hcb : dist c < dist b := Nat.lt_of_not_le hb
      have hca : dist c ≤ dist a := by omega
      simp [ha, hb, hcb.le, hca]

/-! ### The filter types (R240, R249) -/

/-- Each filter type runs the row with its predictor. -/
theorem filterTypes_map_exec :
    filterTypes.map (fun e => exec e.1) = filterTypes.map fun e s => tokenEnd (unfilterRow e.2 s) := rfl

theorem exec_filterType {e : Instr × (Nat → Nat → Nat → Nat)} (he : e ∈ filterTypes) (s : State) :
    exec e.1 s = tokenEnd (unfilterRow e.2 s) :=
  congrFun (List.map_inj_left.1 filterTypes_map_exec e he) s

/-- Settles O29: each of the eight meanings is a raise. -/
theorem reservedFilterRaises : Obligations.ReservedFilterRaises := by
  intro a b c d e s i hi
  simp only [reservedFilters, List.mem_cons, List.not_mem_nil, or_false] at hi
  rcases hi with rfl | rfl | rfl | rfl | rfl | rfl | rfl | rfl <;> rfl

/-! ### Rows as solutions of the recurrence (R240, R242, R252) -/

/-- The first `n` bytes of `g` are the row that `s` is about to reverse. -/
def IsRow (pred : Nat → Nat → Nat → Nat) (s : State) (n : Nat) (g : Nat → Byte) : Prop :=
  ∀ i < n, g i = rowByte pred s g i

section
variable {pred : Nat → Nat → Nat → Nat} {s : State} {n : Nat} {g g' : Nat → Byte}

/-- A byte is predicted from the bytes of its row that stand before it. -/
theorem rowByte_congr (hbpp : 1 ≤ s.lat.bpp.toNat) {i : Nat} (h : ∀ j < i, g j = g' j) :
    rowByte pred s g i = rowByte pred s g' i := by
  have hleft : (if s.lat.bpp.toNat ≤ i then (g (i - s.lat.bpp.toNat)).toNat else 0) =
      if s.lat.bpp.toNat ≤ i then (g' (i - s.lat.bpp.toNat)).toNat else 0 :=
    if_ctx_congr Iff.rfl (fun hi => by rw [h _ (by omega)]) fun _ => rfl
  rw [rowByte, rowByte, hleft]

theorem IsRow.congr (hbpp : 1 ≤ s.lat.bpp.toNat) (h : IsRow pred s n g) (hg : ∀ i < n, g' i = g i) :
    IsRow pred s n g' := fun i hi => by
  rw [hg i hi, h i hi, rowByte_congr hbpp fun j hj => hg j (hj.trans hi)]

/-- The recurrence has one solution. -/
theorem IsRow.unique (hbpp : 1 ≤ s.lat.bpp.toNat) (h : IsRow pred s n g) (h' : IsRow pred s n g') :
    ∀ i < n, g i = g' i := by
  intro i
  induction i using Nat.strong_induction_on with
  | _ i ih =>
    intro hi
    rw [h i hi, h' i hi, rowByte_congr hbpp fun j hj => ih j hj (hj.trans hi)]

/-- A byte is the reversed one exactly if its forward filter is the input's byte (R252). -/
theorem eq_rowByte_iff (i : Nat) : g i = rowByte pred s g i ↔
    BitVec.ofNat 8 (inputField s (s.p.toNat + 8 * i) 8) = forwardFilter pred s.lat.bpp.toNat (decide (1 ≤ s.row)) g
      (fun j => outputByte s (s.out.toNat - s.lat.rowBytes.toNat + j)) i := by
  have hc : (if 1 ≤ s.row ∧ s.lat.bpp.toNat ≤ i then
        (outputByte s (s.out.toNat - s.lat.rowBytes.toNat + i - s.lat.bpp.toNat)).toNat else 0) =
      if 1 ≤ s.row ∧ s.lat.bpp.toNat ≤ i then
        (outputByte s (s.out.toNat - s.lat.rowBytes.toNat + (i - s.lat.bpp.toNat))).toNat else 0 :=
    if_ctx_congr Iff.rfl (fun h => by rw [Nat.add_sub_assoc h.2]) fun _ => rfl
  simp only [rowByte, reconstruct, forwardFilter, decide_eq_true_eq, hc, BitVec.ofNat_add]
  rw [eq_comm, ← BitVec.eq_sub_iff_add_eq]

/-- What a run has emitted of a row is the row as R242 gives it. -/
theorem Emitted.rowReconstructed {u : State} {q : Nat} (he : Emitted s u n q g) (hg : IsRow pred s n g)
    (hl : LegalRanges s.lat) (hbpp : 1 ≤ s.lat.bpp.toNat) (hrow : 1 ≤ s.row → s.lat.rowBytes.toNat ≤ s.out.toNat)
    (hn : n ≤ s.lat.rowBytes.toNat) (hr : HasRoom s n) : RowReconstructed s u pred n := by
  intro i hi
  have hleft : leftOf u s.out.toNat i = if s.lat.bpp.toNat ≤ i then (g (i - s.lat.bpp.toNat)).toNat else 0 := by
    rw [leftOf, he.lat]
    refine if_ctx_congr Iff.rfl (fun h => ?_) fun _ => rfl
    rw [Nat.add_sub_assoc h, he.bytes _ (by omega)]
  have habove : aboveOf u s.row s.out.toNat i = aboveOf s s.row s.out.toNat i := by
    rw [aboveOf, he.lat]
    refine if_ctx_congr Iff.rfl (fun h => ?_) fun _ => rfl
    have := hrow h
    rw [he.earlier hl hr (by omega)]
  have hupper : upperLeftOf u s.row s.out.toNat i = upperLeftOf s s.row s.out.toNat i := by
    rw [upperLeftOf, he.lat]
    refine if_ctx_congr Iff.rfl (fun h => ?_) fun _ => rfl
    have := hrow h.1
    rw [he.earlier hl hr (by omega)]
  rw [he.bytes i hi, hg i hi, hleft, habove, hupper]
  rfl

end

/-! ### The loop over a row (R240, R274) -/

theorem unfilterBytes_add (pred : Nat → Nat → Nat → Nat) (start m n i : Nat) :
    unfilterBytes pred start i (m + n) =
      (unfilterBytes pred start i m).bind fun _ => unfilterBytes pred start (i + m) n := by
  induction m generalizing i with
  | zero => rw [Nat.zero_add]; rfl
  | succ m ih => simp only [Nat.succ_add, unfilterBytes, ih, Act.bind_assoc, Nat.add_succ]

theorem unfilterRow_raised {pred : Nat → Nat → Nat → Nat} {s u : State} {e : ErrCode}
    (h : unfilterBytes pred s.out.toNat 0 s.lat.rowBytes.toNat s = .raised e u) : unfilterRow pred s = .raised e u :=
  Act.bind_raised h

/-- A row whose loop runs to its end answers the end of the row. -/
theorem exec_filterType_ok {e : Instr × (Nat → Nat → Nat → Nat)} (he : e ∈ filterTypes) {s u : State}
    (h : unfilterBytes e.2 s.out.toNat 0 s.lat.rowBytes.toNat s = .ok () u) : exec e.1 s = .next u.rowEnd := by
  rw [exec_filterType he, unfilterRow, Act.bind_ok h, engineSet_apply, tokenEnd_ok]

section
variable {s : State} (hq : Quiet s) (hl : LegalRanges s.lat) (hm : Memory.wf s.mem) (hbpp : 1 ≤ s.lat.bpp.toNat)
  (hrow : 1 ≤ s.row → s.lat.rowBytes.toNat ≤ s.out.toNat) (pred : Nat → Nat → Nat → Nat) {m : Nat}
  (hb : HasBits s (8 * m)) (hr : HasRoom s m)
include hq hl hm hbpp hrow hb hr

/-- With the bytes in the input and room for them, all are reversed. -/
theorem unfilterBytes_ok (hmn : m ≤ s.lat.rowBytes.toNat) :
    ∃ u g, unfilterBytes pred s.out.toNat 0 m s = .ok () u ∧ Emitted s u m (s.p.toNat + 8 * m) g ∧
      IsRow pred s m g := by
  have h := unfilterBytes_run pred hq hl hbpp hrow m (Emitted.refl hm fun _ => 0) (fun j hj => absurd hj j.not_lt_zero)
  rw [Nat.zero_add] at h
  exact h hmn hb hr

/-- A row whose first `m` bytes succeed raises what byte `m` raises. -/
theorem unfilterRow_raises (hmn : m < s.lat.rowBytes.toNat) {e : ErrCode} {f : State → State}
    (hf : ∀ u g, Emitted s u m (s.p.toNat + 8 * m) g → ∀ k,
      unfilterBytes pred s.out.toNat m (k + 1) u = .raised e (f u)) :
    ∃ u g, unfilterRow pred s = .raised e (f u) ∧ Emitted s u m (s.p.toNat + 8 * m) g ∧ IsRow pred s m g := by
  obtain ⟨u, g, hu, he, hg⟩ := unfilterBytes_ok hq hl hm hbpp hrow pred hb hr hmn.le
  obtain ⟨k, hk⟩ := Nat.exists_eq_add_of_lt hmn
  refine ⟨u, g, unfilterRow_raised ?_, he, hg⟩
  rw [hk, Nat.add_assoc, unfilterBytes_add, Act.bind_ok hu, Nat.zero_add, hf u g he]

theorem unfilterRow_truncated (hmn : m < s.lat.rowBytes.toNat) (hend : ¬HasBits s (8 * (m + 1))) :
    ∃ u g, unfilterRow pred s = .raised .truncated u ∧ Emitted s u m (s.p.toNat + 8 * m) g ∧ IsRow pred s m g := by
  refine unfilterRow_raises hq hl hm hbpp hrow pred hb hr hmn (f := id) fun u g he k => ?_
  have hmiss : ¬HasBits u 8 := by
    rwa [HasBits, he.p (bits_lt hl.1 hb), inputBits, he.lat, Nat.add_assoc, ← Nat.mul_succ]
  exact Act.bind_raised (readBits_truncated (he.quiet hq) hmiss)

/-- A row without room for byte `m` has read that byte. -/
theorem unfilterRow_overflow (hmn : m < s.lat.rowBytes.toNat) (hnext : HasBits s (8 * (m + 1)))
    (hfull : ¬HasRoom s (m + 1)) :
    ∃ u g, unfilterRow pred s = .raised .outputOverflow u ∧ Emitted s u m (s.p.toNat + 8 * (m + 1)) g ∧
      IsRow pred s m g := by
  obtain ⟨u, g, hu, he, hg⟩ := unfilterRow_raises hq hl hm hbpp hrow pred hb hr hmn
    (f := State.setP (s.p.toNat + 8 * (m + 1))) fun u g he k => by
      have hfull' : ¬HasRoom (u.setP (s.p.toNat + 8 * (m + 1))) 1 := by
        rwa [HasRoom, setP_out, setP_lat, he.lat, he.out, Nat.add_assoc]
      have hq' : Quiet (u.setP (s.p.toNat + 8 * (m + 1))) := he.quiet hq
      have hread : readBits 8 u = .ok _ (u.setP (s.p.toNat + 8 * (m + 1))) := he.readBits hq hl hr hnext
      rw [unfilterBytes, Act.bind_ok hread, Act.bind_ok (neighbours_ok hq' _ _)]
      exact Act.bind_raised (emit_overflow hq' hfull' _)
  exact ⟨_, g, hu, he.moveCursor _, hg⟩

end

/-! ### The statements about a row -/

/-- Settles O27: the loop runs to its end, and the end of the row only moves the position or completes. -/
theorem filterRowReconstructs : Obligations.FilterRowReconstructs := by
  intro s hq hl hm hbpp hrow hb hr e he
  obtain ⟨u, g, hu, hem, hg⟩ := unfilterBytes_ok hq hl hm hbpp hrow e.2 hb hr le_rfl
  refine ⟨{ u with row := s.row + 1 }, ?_, congrArg (fun x : State => { x with row := s.row + 1 }) hem.frame,
    hem.emits, hem.rowReconstructed hg hl hbpp hrow le_rfl hr⟩
  rw [exec_filterType_ok he hu, State.rowEnd, hem.row, hem.lat]

/-- Settles O28: the loop stops at byte `m`, which is missing or has no room. -/
theorem filterRowErrors : Obligations.FilterRowErrors := by
  intro m s hq hl hm hbpp hrow hmn hb hr e he
  rw [exec_filterType he]
  refine ⟨fun hend => ?_, fun hnext hfull => ?_⟩
  · obtain ⟨u, g, hu, hem, hg⟩ := unfilterRow_truncated hq hl hm hbpp hrow e.2 hb hr hmn hend
    exact ⟨u, congrArg tokenEnd hu, hem.frame, hem.emits, hem.rowReconstructed hg hl hbpp hrow hmn.le hr⟩
  · obtain ⟨u, g, hu, hem, hg⟩ := unfilterRow_overflow hq hl hm hbpp hrow e.2 hb hr hmn hnext hfull
    exact ⟨u, congrArg tokenEnd hu, hem.frame, hem.emits, hem.rowReconstructed hg hl hbpp hrow hmn.le hr⟩

theorem outputByte_rowEnd (u : State) (k : Nat) : outputByte u.rowEnd k = outputByte u k := by
  unfold State.rowEnd
  split <;> rfl

/-- Settles O30: the new output and every raw row with the given forward filter solve the one recurrence. -/
theorem filterRoundTrip : Obligations.FilterRoundTrip := by
  intro s hq hl hm hbpp hrow hb hr e he filt above
  obtain ⟨u, g, hu, hem, hg⟩ := unfilterBytes_ok hq hl hm hbpp hrow e.2 hb hr le_rfl
  have hout : IsRow e.2 s s.lat.rowBytes.toNat fun i => outputByte u.rowEnd (s.out.toNat + i) :=
    hg.congr hbpp fun i hi => (outputByte_rowEnd u _).trans (hem.bytes i hi)
  refine ⟨u.rowEnd, exec_filterType_ok he hu, fun raw hraw => ?_, fun i hi => ((eq_rowByte_iff i).1 (hout i hi)).symm⟩
  have hrawRow : IsRow e.2 s s.lat.rowBytes.toNat raw := fun i hi => (eq_rowByte_iff i).2 (hraw i hi)
  exact hout.unique hbpp hrawRow

end Sys2Proof.Machine
end

section
/-! The exceptions family, first part: what an abort request changes of a piece of pseudocode (R285). A piece stops at a
boundary that its draw picked, or does what it does without the request. -/

namespace Sys2Proof.Machine

/-! ### A state without its abort request -/

/-- The state with no abort requested, after `n` draws. -/
def State.unasked (n : Nat) (s : State) : State := { s with abortReq := false, draws := n }

/-- `t` follows `s` inside a token, with no picked boundary between them: STATUS, CODE and the request are left alone, or
the command has completed with OK. -/
structure Passes (s t : State) : Prop where
  draws : s.draws ≤ t.draws
  unpicked : ∀ k, s.draws ≤ k → k < t.draws → Config.abortPoint k = false
  status : (t.busy = s.busy ∧ t.abortReq = s.abortReq ∧ t.err = s.err) ∨
    (t.busy = false ∧ t.abortReq = false ∧ t.err = .ok)

/-- A token begun in `s` was stopped in `t`, under a request, at a boundary that its draw picked. -/
structure Stopped (s t : State) : Prop where
  request : s.abortReq = true
  begun : t.p ≠ 0
  picked : ∃ k, s.draws ≤ k ∧ k < t.draws ∧ Config.abortPoint k = true

theorem unpicked_nil {s t : State} (hd : t.draws = s.draws) (k : Nat) (h : s.draws ≤ k) (h' : k < t.draws) :
    Config.abortPoint k = false := by omega

/-- An update that is none of the draws, STATUS, CODE and the request. -/
theorem Passes.kept {s t : State} (hd : t.draws = s.draws) (hb : t.busy = s.busy) (ha : t.abortReq = s.abortReq)
    (he : t.err = s.err) : Passes s t := ⟨hd.ge, unpicked_nil hd, .inl ⟨hb, ha, he⟩⟩

/-- A completion with OK. -/
theorem Passes.completed {s t : State} (hd : t.draws = s.draws) (hb : t.busy = false) (ha : t.abortReq = false)
    (he : t.err = .ok) : Passes s t := ⟨hd.ge, unpicked_nil hd, .inr ⟨hb, ha, he⟩⟩

theorem Passes.refl (s : State) : Passes s s := .kept rfl rfl rfl rfl

theorem Passes.trans {a b c : State} (h : Passes a b) (h' : Passes b c) : Passes a c where
  draws := h.draws.trans h'.draws
  unpicked k hk hk' := by
    rcases Nat.lt_or_ge k b.draws with hb | hb
    · exact h.unpicked k hk hb
    · exact h'.unpicked k hb hk'
  status := by
    rcases h'.status with ⟨hb, ha, he⟩ | hdone
    · rw [hb, ha, he]
      exact h.status
    · exact .inr hdone

/-- A request that holds after a piece was held before it. -/
theorem Passes.request {s t : State} (h : Passes s t) (ht : t.abortReq = true) : s.abortReq = true := by
  rcases h.status with ⟨-, ha, -⟩ | ⟨-, ha, -⟩
  · exact ha ▸ ht
  · exact absurd (ha.symm.trans ht) Bool.false_ne_true

theorem Passes.err_ne_aborted {s t : State} (h : Passes s t) (hs : s.err ≠ .aborted) : t.err ≠ .aborted := by
  rcases h.status with ⟨-, -, he⟩ | ⟨-, -, he⟩
  · exact he ▸ hs
  · exact he ▸ nofun

theorem Passes.stopped {a b c : State} (h : Passes a b) (h' : Stopped b c) : Stopped a c := by
  obtain ⟨k, hk, hk', hpick⟩ := h'.picked
  exact ⟨h.request h'.request, h'.begun, k, h.draws.trans hk, hk', hpick⟩

/-! ### Pieces of pseudocode under a request -/

/-- What a piece can do from state `s`, whether an abort is requested or not: it stops at a picked boundary, or it does
what it does without the request and its draws. It raises `Aborted` nowhere else. -/
inductive Act.Abortable {α : Type} (m : Act α) (s : State) : Prop
  | value {a : α} {t : State} (h : m s = .ok a t) (hp : Passes s t) (hq : ∀ n, m (s.unasked n) = .ok a (t.unasked n))
  | raise {e : ErrCode} {t : State} (he : e ≠ .aborted) (h : m s = .raised e t) (hp : Passes s t)
      (hq : ∀ n, m (s.unasked n) = .raised e (t.unasked n))
  | stop {t : State} (h : m s = .raised .aborted t) (hs : Stopped s t)

theorem Act.Abortable.bind {α β : Type} {m : Act α} {f : α → Act β} {s : State} (hm : m.Abortable s)
    (hf : ∀ a t, (f a).Abortable t) : (m.bind f).Abortable s := by
  cases hm with
  | raise he h hp hq => exact .raise he (Act.bind_raised h) hp fun n => Act.bind_raised (hq n)
  | stop h hs => exact .stop (Act.bind_raised h) hs
  | @value a t h hp hq =>
    cases hf a t with
    | value h' hp' hq' =>
      exact .value ((Act.bind_ok h).trans h') (hp.trans hp') fun n => (Act.bind_ok (hq n)).trans (hq' n)
    | raise he h' hp' hq' =>
      exact .raise he ((Act.bind_ok h).trans h') (hp.trans hp') fun n => (Act.bind_ok (hq n)).trans (hq' n)
    | stop h' hs' => exact .stop ((Act.bind_ok h).trans h') (hp.stopped hs')

theorem Act.Abortable.pure {α : Type} (a : α) (s : State) : (Act.pure a).Abortable s :=
  .value rfl (.refl s) fun _ => rfl

theorem Act.Abortable.raiseErr {α : Type} {e : ErrCode} (s : State) (he : e ≠ .aborted := by decide) :
    (raiseErr e : Act α).Abortable s := .raise he rfl (.refl s) fun _ => rfl

/-- A piece that first reads a value that does not depend on the request. -/
theorem Act.Abortable.reads {α β : Type} {g : State → β} {F : β → Act α} {s : State} (h : (F (g s)).Abortable s)
    (hg : ∀ n, g (s.unasked n) = g s := by exact fun _ => rfl) : Act.Abortable (fun s => F (g s) s) s := by
  cases h with
  | value h hp hq => exact .value h hp fun n => (congrArg (F · (s.unasked n)) (hg n)).trans (hq n)
  | raise he h hp hq => exact .raise he h hp fun n => (congrArg (F · (s.unasked n)) (hg n)).trans (hq n)
  | stop h hs => exact .stop h hs

/-- A test that does not depend on the request. -/
theorem Act.Abortable.ite {α : Type} {c : State → Prop} {_ : ∀ s, Decidable (c s)} {m m' : Act α} {s : State}
    (hm : m.Abortable s) (hm' : m'.Abortable s) (hc : ∀ n, c (s.unasked n) = c s := by exact fun _ => rfl) :
    Act.Abortable (fun s => if c s then m s else m' s) s := by
  have h : (if c s then m else m').Abortable s := by split <;> assumption
  have hd : (fun s => if c s then m s else m' s) = fun s => (if decide (c s) then m else m') s := by
    funext s
    by_cases hc : c s <;> simp [hc]
  rw [hd]
  exact .reads (g := fun s => decide (c s)) (F := fun b => if b then m else m') (by simpa using h)
    fun n => by simp only [hc n]

/-- A test that raises, or goes on. -/
theorem Act.Abortable.guard {α : Type} {c : State → Prop} {_ : ∀ s, Decidable (c s)} {e : ErrCode} {m : Act α}
    {s : State} (hm : m.Abortable s) (he : e ≠ .aborted := by decide)
    (hc : ∀ n, c (s.unasked n) = c s := by exact fun _ => rfl) :
    Act.Abortable (fun s => if c s then .raised e s else m s) s :=
  .ite (m := Machine.raiseErr e) (.raiseErr s he) hm hc

/-! ### The primitives -/

theorem boundary_unasked (s : State) (n : Nat) : boundary (s.unasked n) = .ok () (s.unasked n) := boundary_quiet rfl

theorem Stopped.here {s : State} (ha : s.abortReq = true) (hp : s.p ≠ 0) (hd : Config.abortPoint s.draws = true) :
    Stopped s s.drawn := ⟨ha, hp, s.draws, le_rfl, Nat.lt_succ_self _, hd⟩

theorem Passes.drawn {s : State} (hd : Config.abortPoint s.draws = false) : Passes s s.drawn where
  draws := Nat.le_succ _
  unpicked k hk hk' := by
    rw [drawn_draws] at hk'
    rwa [show k = s.draws by omega]
  status := .inl ⟨rfl, rfl, rfl⟩

theorem boundary_abortable (s : State) : boundary.Abortable s := by
  cases h : boundary s with
  | ok a t =>
    rcases boundary_passed h with rfl | ⟨rfl, hd⟩
    · exact .value h (.refl t) (boundary_unasked t)
    · exact .value h (.drawn hd) (boundary_unasked s)
  | raised e t =>
    obtain ⟨rfl, rfl, ha, hp, hd⟩ := boundary_raised h
    exact .stop h (.here ha hp hd)

/-- A reset that stops the engine at an `Emit` may draw once more (assumption 9). -/
theorem Stopped.atEmit {s t : State} (h : Stopped s t) : Stopped s t.stoppedAtEmit := by
  rcases stoppedAtEmit_cases t with he | ⟨-, -, b, he⟩ <;> rw [he]
  · exact h
  · obtain ⟨k, hk, hk', hpick⟩ := h.picked
    exact ⟨h.request, h.begun, k, hk, Nat.lt_succ_of_lt hk', hpick⟩

theorem emitBoundary_abortable (s : State) : emitBoundary.Abortable s := by
  cases boundary_abortable s with
  | value h hp hq => exact .value (by rw [emitBoundary, h]) hp fun n => by rw [emitBoundary, hq n]
  | raise he h => exact absurd (boundary_raised h).1 he
  | stop h hs => exact .stop (by rw [emitBoundary, h]) hs.atEmit

theorem setP_abortable {α : Type} (g : State → α) (q : State → Nat) (s : State)
    (hg : ∀ n, g (s.unasked n) = g s := by exact fun _ => rfl)
    (hq : ∀ n, q (s.unasked n) = q s := by exact fun _ => rfl) :
    Act.Abortable (fun s => .ok (g s) (s.setP (q s))) s :=
  .value rfl (.kept rfl rfl rfl rfl) fun n => by rw [hg n, hq n]; rfl

theorem readBits_abortable (n : Nat) (s : State) : (readBits n).Abortable s :=
  (boundary_abortable s).bind fun _ t => .guard (setP_abortable (peekBits · n) (fun s => s.p.toNat + n) t)

theorem alignToByte_abortable (s : State) : alignToByte.Abortable s :=
  (boundary_abortable s).bind fun _ t => setP_abortable _ _ t

theorem takeSymbol_abortable (found : Option (Nat × Nat)) (s : State) : (takeSymbol found).Abortable s := by
  cases found with
  | none => exact .raiseErr (e := .invalidHuffmanSymbol) s
  | some r => exact .guard (setP_abortable (fun _ => r.1) (fun s => s.p.toNat + r.2) s)

theorem decodeSym_abortable (t : CodeTable) (s : State) : (decodeSym t).Abortable s :=
  (boundary_abortable s).bind fun _ u =>
    .reads (g := fun s => t.decode fun i => peekBit s (s.p.toNat + i)) (takeSymbol_abortable _ u)

theorem readFields_abortable (n k : Nat) : ∀ s, (readFields n k).Abortable s := by
  induction k with
  | zero => exact .pure _
  | succ k ih =>
    exact fun s => (readBits_abortable n s).bind fun _ t => (ih t).bind fun _ => .pure _

theorem emit_abortable (b : Byte) (s : State) : (emit b).Abortable s :=
  (emitBoundary_abortable s).bind fun _ _ =>
    .guard (m := engineSet (State.emitted b)) (.value rfl (.kept rfl rfl rfl rfl) fun _ => rfl)

theorem outByte_abortable (k : Nat) (s : State) : (outByte k).Abortable s :=
  (boundary_abortable s).bind fun _ t => .value rfl (.refl t) fun _ => rfl

/-! ### The loops -/

theorem emitBytes_abortable (bytes : List Byte) : ∀ s, (emitBytes bytes).Abortable s := by
  induction bytes with
  | nil => exact .pure _
  | cons b bytes ih => exact fun s => (emit_abortable b s).bind fun _ => ih

theorem copyStored_abortable (n : Nat) : ∀ s, (copyStored n).Abortable s := by
  induction n with
  | zero => exact .pure _
  | succ n ih => exact fun s => (readBits_abortable 8 s).bind fun _ t => (emit_abortable _ t).bind fun _ => ih

theorem copyMatch_abortable (dist n : Nat) : ∀ s, (copyMatch dist n).Abortable s := by
  induction n with
  | zero => exact .pure _
  | succ n ih =>
    exact fun s => .reads (g := fun s => s.out.toNat - dist)
      (F := fun k => (outByte k).bind fun b => (emit b).bind fun _ => copyMatch dist n)
      ((outByte_abortable _ s).bind fun _ t => (emit_abortable _ t).bind fun _ => ih)

theorem neighbour_abortable (inside : Bool) (k : Nat) (s : State) : (neighbour inside k).Abortable s := by
  cases inside with
  | false => exact .pure _ s
  | true => exact (outByte_abortable k s).bind fun _ => .pure _

/-- `Neighbours` reads BPP, RB and the row, and then output bytes. -/
theorem neighbours_abortable (i start : Nat) (s : State) : (neighbours i start).Abortable s :=
  .reads (g := fun s => (s.lat.bpp.toNat, s.lat.rowBytes.toNat, s.row))
    (F := fun g => (neighbour (g.1 ≤ i) (start + i - g.1)).bind fun a =>
      (neighbour (1 ≤ g.2.2) (start - g.2.1 + i)).bind fun b =>
        (neighbour (1 ≤ g.2.2 && g.1 ≤ i) (start - g.2.1 + i - g.1)).bind fun c => .pure (a, b, c))
    ((neighbour_abortable _ _ s).bind fun _ t => (neighbour_abortable _ _ t).bind fun _ u =>
      (neighbour_abortable _ _ u).bind fun _ => .pure _)

theorem unfilterBytes_abortable (pred : Nat → Nat → Nat → Nat) (start n : Nat) :
    ∀ i s, (unfilterBytes pred start i n).Abortable s := by
  induction n with
  | zero => exact fun _ => .pure _
  | succ n ih =>
    exact fun i s => (readBits_abortable 8 s).bind fun _ t => (neighbours_abortable i start t).bind fun _ u =>
      (emit_abortable _ u).bind fun _ => ih (i + 1)

end Sys2Proof.Machine
end

section
/-! The exceptions family, second part: every token under an abort request (O54), what a token leaves of STATUS (O53),
and the interrupt line (O60). -/

namespace Sys2Proof.Machine

/-! ### The fetch -/

theorem fetchValue_abortable (f : Format) (s : State) : (fetchValue f).Abortable s := by
  cases f with
  | cmd => exact .pure 0 s
  | status => exact .pure 0 s
  | zhdr => exact (readBits_abortable 8 s).bind fun _ t => (readBits_abortable 8 t).bind fun _ => .pure _
  | bhdr => exact (readBits_abortable 1 s).bind fun _ t => (readBits_abortable 2 t).bind fun _ => .pure _
  | stored =>
    exact (alignToByte_abortable s).bind fun _ t => (readBits_abortable 16 t).bind fun _ u =>
      (readBits_abortable 16 u).bind fun _ => .pure _
  | dynHdr =>
    exact (readBits_abortable 5 s).bind fun _ t => (readBits_abortable 5 t).bind fun _ u =>
      (readBits_abortable 4 u).bind fun _ => .pure _
  | clSym => exact .reads (g := State.tcl) (decodeSym_abortable _ s)
  | litLen => exact .reads (g := State.tll) (decodeSym_abortable _ s)
  | dist => exact .reads (g := State.td) (decodeSym_abortable _ s)
  | trailer =>
    exact (alignToByte_abortable s).bind fun _ t => (readBits_abortable 8 t).bind fun _ u =>
      (readBits_abortable 8 u).bind fun _ v => (readBits_abortable 8 v).bind fun _ w =>
        (readBits_abortable 8 w).bind fun _ => .pure _
  | filterRow => exact readBits_abortable 8 s
  | codeLen => exact readBits_abortable 8 s

/-- A token at which an abort may stop begins with a boundary. -/
theorem fetchValue_picked {s : State} {f : Format} (hf : s.phase.format = some f)
    (hb : boundary s = .raised .aborted s.drawn) : fetchValue f s = .raised .aborted s.drawn := by
  have hr : ∀ n, readBits n s = .raised .aborted s.drawn := fun n => Act.bind_raised hb
  have ha : alignToByte s = .raised .aborted s.drawn := Act.bind_raised hb
  cases hph : s.phase <;> rw [hph] at hf <;> cases hf
  case zlibHeader | blockHeader | dynHeader => exact Act.bind_raised (hr _)
  case storedHeader | trailer => exact Act.bind_raised ha
  case clSymbol | litLenSymbol | distSymbol => exact Act.bind_raised hb
  case rowHeader | codeLength => exact hr 8

/-! ### The meanings of the tokens -/

/-- An update of the engine's registers that is none of the draws, STATUS, CODE and the request. -/
theorem engineSet_abortable {f : State → State} (s : State) (hp : Passes s (f s) := by exact .kept rfl rfl rfl rfl)
    (hq : ∀ n, f (s.unasked n) = (f s).unasked n := by exact fun _ => rfl) : (engineSet f).Abortable s :=
  .value rfl hp fun n => congrArg (Res.ok ()) (hq n)

theorem complete_ok_abortable (s : State) : (engineSet (State.complete .ok)).Abortable s :=
  engineSet_abortable s (.completed rfl rfl rfl rfl)

theorem readCodeLengthCode_abortable (n : Nat) (s : State) : (readCodeLengthCode n).Abortable s :=
  (readFields_abortable 3 n s).bind fun values t =>
    .guard (m := engineSet fun s => { s with tcl := CodeTable.build (codeLengthLengths values) })
      (engineSet_abortable t)

theorem buildDynamicTrees_abortable (s : State) : buildDynamicTrees.Abortable s :=
  .guard <| .guard <| .guard <|
    engineSet_abortable (f := fun s => { s with
      tll := CodeTable.build (litLenLengths s), td := CodeTable.build (distLengths s), phase := .litLenSymbol }) s

theorem clNext_abortable (s : State) : clNext.Abortable s :=
  .ite (m := Act.pure ()) (.pure () s) (buildDynamicTrees_abortable s)

theorem clDirect_abortable (c : BitVec 4) (s : State) : (clDirect c).Abortable s :=
  (engineSet_abortable s).bind fun _ => clNext_abortable

theorem clRun_abortable (r : Nat) (v : BitVec 4) (s : State) : (clRun r v).Abortable s :=
  .guard ((engineSet_abortable s).bind fun _ => clNext_abortable)

theorem clRepZero_abortable (n k : Nat) (s : State) : ((readBits n).bind fun x => clRun (k + x) 0).Abortable s :=
  (readBits_abortable n s).bind fun _ => clRun_abortable _ _

theorem clRepPrev_abortable (s : State) :
    ((readBits 2).bind fun x s => clRun (3 + x) (s.lens.getD (s.clCount - 1) 0) s).Abortable s :=
  (readBits_abortable 2 s).bind fun x t =>
    .reads (g := fun s => s.lens.getD (s.clCount - 1) 0) (F := clRun (3 + x)) (clRun_abortable _ _ t)

theorem lengthSymbol_abortable (k : Nat) (s : State) : (lengthSymbol k).Abortable s :=
  (readBits_abortable _ s).bind fun _ t => engineSet_abortable t

theorem distSymbol_abortable (d : Nat) (s : State) : (distSymbol d).Abortable s :=
  (readBits_abortable _ s).bind fun x t => .guard <|
    .reads (g := State.matchLen)
      (F := fun n => (copyMatch (distanceBaseOf d + x) n).bind fun _ => engineSet (State.setPhase .litLenSymbol))
      ((copyMatch_abortable _ _ t).bind fun _ u => engineSet_abortable u)

theorem rowEnd_abortable (s : State) : (engineSet State.rowEnd).Abortable s := by
  have h : engineSet State.rowEnd = fun s =>
      if s.row + 1 < s.lat.rows.toNat then engineSet (fun s => { s with row := s.row + 1, phase := .rowHeader }) s
      else engineSet (fun s => State.complete .ok { s with row := s.row + 1 }) s := by
    funext s
    rw [engineSet_apply, State.rowEnd, engineSet_apply, engineSet_apply, apply_ite (Res.ok ())]
  rw [h]
  exact .ite (engineSet_abortable s) (engineSet_abortable s (.completed rfl rfl rfl rfl))

theorem unfilterRow_abortable (pred : Nat → Nat → Nat → Nat) (s : State) : (unfilterRow pred).Abortable s :=
  .reads (g := fun s => (s.out.toNat, s.lat.rowBytes.toNat))
    (F := fun g => (unfilterBytes pred g.1 0 g.2).bind fun _ => engineSet State.rowEnd)
    ((unfilterBytes_abortable pred _ _ 0 s).bind fun _ => rowEnd_abortable)

theorem buildCode_abortable (s : State) : buildCode.Abortable s :=
  .guard <|
    .reads (g := State.symbolLengths)
      (F := fun ls => (engineSet fun s => { s with thb := CodeTable.build ls }).bind fun _ =>
        (emitBytes (codeBytes (CodeTable.build ls))).bind fun _ => engineSet (State.complete .ok))
      ((engineSet_abortable s).bind fun _ t => (emitBytes_abortable _ t).bind fun _ => complete_ok_abortable)

theorem hblen_abortable (len : BitVec 4) (s : State) : Act.Abortable (fun s =>
    if s.symIdx + 1 < s.lat.nsym.toNat then .ok () (s.pushLength len) else buildCode (s.pushLength len)) s :=
  .ite (m := engineSet (State.pushLength len)) (m' := (engineSet (State.pushLength len)).bind fun _ => buildCode)
    (engineSet_abortable s) ((engineSet_abortable s).bind fun _ => buildCode_abortable)

theorem storedBlock_abortable (n : Nat) (s : State) :
    ((copyStored n).bind fun _ => engineSet State.blockEnd).Abortable s :=
  (copyStored_abortable n s).bind fun _ t => engineSet_abortable t

theorem trailer_abortable (a : Word) (s : State) : Act.Abortable (fun s =>
    if a = adlerRead s then .ok () (State.complete .ok { s with trailer := a })
    else .raised .checksumMismatch { s with trailer := a }) s :=
  .ite (m := engineSet fun s => State.complete .ok { s with trailer := a })
    (m' := (engineSet fun s => { s with trailer := a }).bind fun _ => raiseErr .checksumMismatch)
    (engineSet_abortable s (.completed rfl rfl rfl rfl))
    ((engineSet_abortable s).bind fun _ t => .raiseErr t)

/-- The meaning of an instruction is a token's: a piece of pseudocode that an abort may stop. -/
def TokenAbortable (i : Instr) : Prop := ∃ m : Act Unit, (exec i = fun s => tokenEnd (m s)) ∧ ∀ s, m.Abortable s

/-- An illegal value raises its rule's error, which is not `Aborted`. -/
theorem TokenAbortable.refused {i : Instr} {e : ErrCode} (h : exec i = fun s => tokenEnd (.raised e s))
    (he : e ≠ .aborted := by decide) : TokenAbortable i := ⟨raiseErr e, h, fun s => .raiseErr s he⟩

/-- Every instruction that stands in the input is a token. -/
theorem decode_abortable {f : Format} {v : Nat} {i : Instr} (hd : decode f v = .ok i) (hc : f ≠ .cmd)
    (hs : f ≠ .status) : TokenAbortable i := by
  have hf : (encode i).1 = f := congrArg Prod.fst (decodedValueIsEncoded f v i hd)
  cases i with
  | inflate | unfilter | huffBuild | abort | cmdReservedOp0 | cmdReservedOp4 | cmdReservedOp5 | cmdReservedOp6
  | cmdReservedOp7 | cmdReservedOp8 | cmdReservedOp9 | cmdReservedOp10 | cmdReservedOp11 | cmdReservedOp12
  | cmdReservedOp13 | cmdReservedOp14 | cmdReservedOp15 => exact absurd hf.symm hc
  | statusClear => exact absurd hf.symm hs
  | zhdr cmf flg =>
    exact ⟨_, rfl, fun s => .ite (c := fun _ => headerOk cmf flg = true) (m := engineSet (State.setPhase .blockHeader))
      (m' := raiseErr .invalidZlibHeader) (engineSet_abortable s) (.raiseErr s)⟩
  | blockStored final =>
    exact ⟨engineSet fun s => (s.latchHeader final 0).setPhase .storedHeader, rfl, fun s => engineSet_abortable s⟩
  | blockFixed final =>
    exact ⟨engineSet fun s => (s.latchHeader final 1).fixedTrees.setPhase .litLenSymbol, rfl,
      fun s => engineSet_abortable s⟩
  | blockDynamic final =>
    exact ⟨engineSet fun s => (s.latchHeader final 2).setPhase .dynHeader, rfl, fun s => engineSet_abortable s⟩
  | blockReserved final =>
    exact ⟨(engineSet (State.latchHeader final 3)).bind fun _ => raiseErr .invalidBlockType, rfl,
      fun s => (engineSet_abortable s).bind fun _ t => .raiseErr t⟩
  | storedLen len nlen =>
    exact ⟨_, rfl, fun s => .ite (c := fun _ => storedOk len nlen = true) (m' := raiseErr .invalidStoredBlock)
      (storedBlock_abortable _ s) (.raiseErr s)⟩
  | dynHdr hlit hdist hclen =>
    exact ⟨_, rfl, fun s => .ite (c := fun _ => hlitOk hlit = true) (m' := raiseErr .invalidDynamicBlock)
      ((readCodeLengthCode_abortable _ s).bind fun _ t => engineSet_abortable t) (.raiseErr s)⟩
  | clLen0 | clLen1 | clLen2 | clLen3 | clLen4 | clLen5 | clLen6 | clLen7 | clLen8 | clLen9 | clLen10 | clLen11
  | clLen12 | clLen13 | clLen14 | clLen15 => exact ⟨_, rfl, clDirect_abortable _⟩
  | clRepPrev => exact ⟨_, rfl, fun s => .guard (clRepPrev_abortable s)⟩
  | clRepZeroShort | clRepZeroLong => exact ⟨_, rfl, clRepZero_abortable _ _⟩
  | lit b => exact ⟨_, rfl, emit_abortable b⟩
  | eob => exact ⟨engineSet State.blockEnd, rfl, fun s => engineSet_abortable s⟩
  | len257 | len258 | len259 | len260 | len261 | len262 | len263 | len264 | len265 | len266 | len267 | len268 | len269
  | len270 | len271 | len272 | len273 | len274 | len275 | len276 | len277 | len278 | len279 | len280 | len281 | len282
  | len283 | len284 | len285 => exact ⟨_, rfl, lengthSymbol_abortable _⟩
  | dist0 | dist1 | dist2 | dist3 | dist4 | dist5 | dist6 | dist7 | dist8 | dist9 | dist10 | dist11 | dist12 | dist13
  | dist14 | dist15 | dist16 | dist17 | dist18 | dist19 | dist20 | dist21 | dist22 | dist23 | dist24 | dist25 | dist26
  | dist27 | dist28 | dist29 => exact ⟨_, rfl, distSymbol_abortable _⟩
  | llReserved286 | llReserved287 | distReserved30 | distReserved31 =>
    exact .refused (e := .invalidHuffmanSymbol) rfl
  | trailer a => exact ⟨_, rfl, trailer_abortable a⟩
  | filterNone | filterSub | filterUp | filterAverage | filterPaeth => exact ⟨_, rfl, unfilterRow_abortable _⟩
  | filterReserved5 | filterReserved6 | filterReserved7 | filterReserved8to15 | filterReserved16to31
  | filterReserved32to63 | filterReserved64to127 | filterReserved128to255 =>
    exact .refused (e := .invalidFilterType) rfl
  | hblen len => exact ⟨_, rfl, hblen_abortable len⟩
  | hblenInvalid16to31 | hblenInvalid32to63 | hblenInvalid64to127 | hblenInvalid128to255 =>
    exact .refused (e := .invalidParameter) rfl

/-! ### The engine's step under a request -/

/-- What an engine step from `s` to `t` did: it went on or completed as without a request, or it was aborted. -/
inductive EngineAbortable (s t : State) : Prop
  | goesOn (hp : Passes s t) (hq : ∀ n, engineStep (s.unasked n) = .next (t.unasked n))
  | raises {e : ErrCode} {u : State} (he : e ≠ .aborted) (ht : t = u.complete e) (hp : Passes s u)
      (hq : ∀ n, engineStep (s.unasked n) = .next (t.unasked n))
  | aborts {u : State} (ht : t = u.complete .aborted) (hs : Stopped s u)

theorem format_ne_host {ph : Phase} {f : Format} (hf : ph.format = some f) : f ≠ .cmd ∧ f ≠ .status := by
  cases ph <;> cases hf <;> decide

theorem engineStep_abortable {s t : State} (h : engineStep s = .next t) : EngineAbortable s t := by
  obtain ⟨f, hf, -⟩ := engineStep_next h
  cases fetchValue_abortable f s with
  | stop hv hs =>
    cases (engineStep_raised hf hv).symm.trans h
    exact .aborts rfl hs
  | raise he hv hp hq =>
    cases (engineStep_raised hf hv).symm.trans h
    exact .raises he rfl hp fun n => engineStep_raised (s := s.unasked n) hf (hq n)
  | @value v u hv hp hq =>
    cases hd : decode f v with
    | error e => simp [engineStep, hf, hv, hd] at h
    | ok i =>
      obtain ⟨hc, hst⟩ := format_ne_host hf
      obtain ⟨m, hm, ha⟩ := decode_abortable hd hc hst
      have hstep : engineStep s = tokenEnd (m u) := (engineStep_ok hf hv hd).trans (congrFun hm u)
      have hunasked : ∀ n, engineStep (s.unasked n) = tokenEnd (m (u.unasked n)) := fun n =>
        (engineStep_ok (s := s.unasked n) hf (hq n) hd).trans (congrFun hm _)
      cases ha u with
      | value h' hp' hq' =>
        rw [hstep, h'] at h
        cases h
        exact .goesOn (hp.trans hp') fun n => by rw [hunasked, hq', tokenEnd_ok]
      | raise he h' hp' hq' =>
        rw [hstep, h'] at h
        cases h
        exact .raises he rfl (hp.trans hp') fun n => by rw [hunasked, hq', tokenEnd_raised]; rfl
      | stop h' hs' =>
        rw [hstep, h'] at h
        cases h
        exact .aborts rfl (hp.stopped hs')

/-- A step ends in `Aborted` only where it was aborted. -/
theorem EngineAbortable.of_aborted {s t : State} (h : EngineAbortable s t) (hs : s.err ≠ .aborted)
    (ht : t.err = .aborted) : Stopped s t := by
  cases h with
  | goesOn hp => exact absurd ht (hp.err_ne_aborted hs)
  | raises he hu => exact absurd ((congrArg State.err hu).symm.trans ht) he
  | aborts hu hst =>
    subst hu
    exact { hst with }

/-- A step that does not end in `Aborted` met no picked boundary, and is the step without the request. -/
theorem EngineAbortable.of_not_aborted {s t : State} (h : EngineAbortable s t) (ht : t.err ≠ .aborted) :
    (∀ k, s.draws ≤ k → k < t.draws → Config.abortPoint k = false) ∧
      ∀ n, engineStep (s.unasked n) = .next (t.unasked n) := by
  cases h with
  | goesOn hp hq => exact ⟨hp.unpicked, hq⟩
  | raises _ hu hp hq =>
    subst hu
    exact ⟨hp.unpicked, hq⟩
  | aborts hu => exact absurd (congrArg State.err hu) ht

/-- A step that leaves the command running leaves the request. -/
theorem EngineAbortable.abortReq {s t : State} (h : EngineAbortable s t) (ht : t.busy = true) :
    t.abortReq = s.abortReq := by
  cases h with
  | goesOn hp =>
    rcases hp.status with ⟨-, ha, -⟩ | ⟨hb, -⟩
    · exact ha
    · exact absurd (hb.symm.trans ht) Bool.false_ne_true
  | raises _ hu | aborts hu => exact absurd ((congrArg State.busy hu).symm.trans ht) Bool.false_ne_true

theorem engineStep_picked {s : State} (hph : s.phase ≠ .idle) (hp : s.p ≠ 0) (ha : s.abortReq = true)
    (hd : Config.abortPoint s.draws = true) : engineStep s = .next (s.drawn.complete .aborted) := by
  obtain ⟨f, hf⟩ : ∃ f, s.phase.format = some f := by
    cases h : s.phase with
    | idle => exact absurd h hph
    | _ => exact ⟨_, rfl⟩
  exact engineStep_raised hf (fetchValue_picked hf (boundary_picked ha hp hd))

/-- Settles O54: by what an engine step under a request can do. The first clause follows from the third. -/
theorem abortStopsAtDrawnBoundary : Obligations.AbortStopsAtDrawnBoundary := by
  refine ⟨fun s t hq hs h ht => ?_, fun _ => engineStep_picked, fun s t hs h ht => ?_, fun s t _ h ht => ?_⟩
  · have hst := (engineStep_abortable h).of_aborted hs ht
    exact Bool.false_ne_true (hq.symm.trans hst.request)
  · obtain ⟨ha, hp, hk⟩ := (engineStep_abortable h).of_aborted hs ht
    exact ⟨ha, hp, hk⟩
  · obtain ⟨hk, hq⟩ := (engineStep_abortable h).of_not_aborted ht
    exact ⟨hk, hq s.draws⟩

/-! ### The end of a token (R31, R273) -/

theorem isError_iff (e : ErrCode) : e.isError = true ↔ e.code ≠ 0 := bne_iff_ne

/-- Settles O53: a token of a running command leaves it waiting for the next one, or completed. -/
theorem tokenEndsOrGoesOn : Obligations.TokenEndsOrGoesOn := by
  intro s t hinv hb h
  obtain ⟨t', ht', hsettled⟩ := (hinv.ready hb).engineStep
  cases ht'.symm.trans h
  rcases hsettled with hready | ⟨e, u, -, rfl⟩
  · obtain ⟨hdone, herrf, herr⟩ := hready.flags
    exact .inl ⟨hready.busy, hdone, herrf, congrArg ErrCode.code herr, (engineStep_abortable h).abortReq hready.busy⟩
  · exact .inr ⟨rfl, rfl, isError_iff e, rfl⟩

/-! ### The interrupt line (R280) -/

theorem irq_iff (s : State) : s.irq = true ↔ s.ie = true ∧ s.done = true := Bool.and_eq_true_iff

theorem irq_complete (s : State) (e : ErrCode) : (s.complete e).irq = s.ie := Bool.and_true _

theorem irq_of_not_done {s : State} (h : s.done = false) : s.irq = false := by rw [State.irq, h, Bool.and_false]

/-- A CTRL write without START sets IE, and the line follows it. -/
theorem irq_exec_abort {s t : State} {ie : Bool} {op : BitVec 4} (h : exec (.abort ie op) s = .next t) :
    t.irq = (ie && s.done) := by
  rw [exec_abort] at h
  cases hb : s.busy with
  | true =>
    cases (ctrlWrite_busy hb ..).symm.trans h
    rfl
  | false =>
    cases (ctrlWrite_store hb ..).symm.trans h
    rfl

/-- A START that begins a command clears DONE. -/
theorem startCommand_not_done {s t : State} {op : BitVec 4} {ie : Bool} (h : startCommand op ie s = .next t)
    (ht : t.busy = true) : t.done = false := by
  rcases startCommand_next h with rfl | ⟨-, rfl⟩
  · exact absurd ht Bool.false_ne_true
  · rfl

/-- Settles O60. -/
theorem interruptLine : Obligations.InterruptLine := by
  intro s
  refine ⟨irq_iff s, irq_complete s, fun e t h => ?_, fun e t h => ?_, fun _ _ _ => irq_exec_abort,
    fun abort ie t hb c hc h ht => ?_⟩
  · cases (exec_statusClear ..).symm.trans h
    exact irq_of_not_done (Bool.and_false _)
  · cases (exec_statusClear ..).symm.trans h
    exact congrArg (s.ie && ·) (Bool.and_true _)
  · rw [(exec_startCommand hc).1, ctrlWrite_start hb] at h
    exact irq_of_not_done (startCommand_not_done h ht)

end Sys2Proof.Machine
end

section
/-! The reset family: every token takes input, so every command completes (O50), and what a reset leaves of the
registers and of memory (O57). -/

namespace Sys2Proof.Machine

theorem Act.Within.of_ok {α : Type} {R : State → State → Prop} {m : Act α} {s t : State} {a : α} (hm : m.Within R)
    (h : m s = .ok a t) : R s t := by
  have hs := hm s
  rwa [h] at hs

theorem Act.Within.of_raised {α : Type} {R : State → State → Prop} {m : Act α} {s t : State} {e : ErrCode}
    (hm : m.Within R) (h : m s = .raised e t) : R s t := by
  have hs := hm s
  rwa [h] at hs

theorem SameHostSide.host {s t : State} (h : SameHostSide s t) : t.host = s.host := by
  simp only [h.2]

theorem SameHostSide.plat {s t : State} (h : SameHostSide s t) : t.plat = s.plat := by
  simp only [h.2]

/-! ### Every token takes a bit (R23, R321) -/

/-- A piece that, where it answers a value, has moved the bit cursor on. -/
def Act.Takes {α : Type} (m : Act α) : Prop :=
  ∀ (s t : State) (a : α), StreamOk s → m s = .ok a t → s.p.toNat < t.p.toNat

theorem Act.Takes.bind {α β : Type} {m : Act α} {f : α → Act β} (hm : m.Takes)
    (hf : ∀ a, (f a).Within StreamsOn) (hs : m.Within StreamsOn) : (m.bind f).Takes := by
  intro s t b h hb
  obtain ⟨a, u, hu, ht⟩ := Act.bind_eq_ok hb
  exact (hm s u a h hu).trans_le ((hf a).of_ok ht (hs.of_ok hu h).ok).cursor

theorem Act.Takes.after {α β : Type} {m : Act α} {f : α → Act β} (hf : ∀ a, (f a).Takes)
    (hs : m.Within StreamsOn) : (m.bind f).Takes := by
  intro s t b h hb
  obtain ⟨a, u, hu, ht⟩ := Act.bind_eq_ok hb
  have hsu := hs.of_ok hu h
  exact hsu.cursor.trans_lt (hf a u t b hsu.ok ht)

theorem setP_cursor_lt {s : State} {n : Nat} (hs : StreamOk s) (hn : 0 < n) (h : HasBits s n) :
    s.p.toNat < (s.setP (s.p.toNat + n)).p.toNat := by
  rw [setP_toNat (bits_lt hs.source h)]
  omega

theorem readBits_takes {n : Nat} (hn : 0 < n) : (readBits n).Takes := by
  refine .after (fun _ s t a hs h => ?_) boundary_streamsOn
  split at h
  · cases h
  · cases h
    exact setP_cursor_lt hs hn (Nat.not_lt.1 ‹_›)

/-- A code has at least one bit (R143). -/
theorem decodeSym_takes (t : CodeTable) : (decodeSym t).Takes := by
  refine .after (fun _ s u a hs h => ?_) boundary_streamsOn
  unfold takeSymbol at h
  split at h
  · cases h
  · rename_i sym len hfound
    split at h
    · cases h
    · cases h
      exact setP_cursor_lt hs (decode_spec hfound).2.1 (Nat.not_lt.1 ‹_›)

theorem readBits_bind_takes {β : Type} {n : Nat} {f : Nat → Act β} (hf : ∀ v, (f v).Within StreamsOn)
    (hn : 0 < n := by decide) : ((readBits n).bind f).Takes :=
  (readBits_takes hn).bind hf (readBits_streamsOn n)

theorem readBits_bind_streamsOn {β : Type} {n : Nat} {f : Nat → Act β} (hf : ∀ v, (f v).Within StreamsOn) :
    ((readBits n).bind f).Within StreamsOn := streamsOn_bind (readBits_streamsOn n) hf

/-- Every format that stands in the input has a field or a code of at least one bit. -/
theorem fetchValue_takes {f : Format} (hc : f ≠ .cmd) (hs : f ≠ .status) : (fetchValue f).Takes := by
  cases f with
  | cmd => exact absurd rfl hc
  | status => exact absurd rfl hs
  | zhdr | bhdr => exact readBits_bind_takes fun _ => readBits_bind_streamsOn fun _ => streamsOn_pure _
  | dynHdr =>
    exact readBits_bind_takes fun _ => readBits_bind_streamsOn fun _ => readBits_bind_streamsOn fun _ =>
      streamsOn_pure _
  | stored =>
    exact .after (fun _ => readBits_bind_takes fun _ => readBits_bind_streamsOn fun _ => streamsOn_pure _)
      alignToByte_streamsOn
  | trailer =>
    exact .after (fun _ => readBits_bind_takes fun _ => readBits_bind_streamsOn fun _ =>
      readBits_bind_streamsOn fun _ => readBits_bind_streamsOn fun _ => streamsOn_pure _) alignToByte_streamsOn
  | clSym | litLen | dist => exact fun s t => decodeSym_takes _ s t
  | filterRow | codeLen => exact readBits_takes (by decide)

/-- A token that leaves the command running has moved the bit cursor on. -/
theorem engineStep_takes {s t : State} (hs : StreamOk s) (h : engineStep s = .next t) (ht : t.busy = true) :
    s.p.toNat < t.p.toNat := by
  obtain ⟨f, hf, ⟨e, u, -, rfl⟩ | ⟨v, u, m, hv, hm, he⟩⟩ := engineStep_next h
  · exact absurd ht Bool.false_ne_true
  · obtain ⟨hc, hst⟩ := format_ne_host hf
    have hu := ((fetchValue_streamsOn f).of_ok hv hs).ok
    exact (fetchValue_takes hc hst s u v hs hv).trans_le (tokenEnd_streamsOn hm.streamsOn he.symm hu).cursor

/-! ### Every command completes (R121, R321) -/

theorem run_succ {k : Nat} {s t : State} (h : step s = .next t) :
    Host.Core.run Sys2Proof.core (k + 1) s = Host.Core.run Sys2Proof.core k t := by
  have h : Sys2Proof.core.step s = .next t := h
  simp only [Host.Core.run, h]

/-- One step of a running command that the host leaves alone. -/
theorem running_step {s : State} (h : Inv s) (hb : s.busy = true) (hh : s.host = []) :
    ∃ t, step s = .next t ∧ ((t.busy = false ∧ t.done = true) ∨
      (Inv t ∧ t.busy = true ∧ t.host = [] ∧ inputBits t = inputBits s ∧ s.p.toNat < t.p.toNat)) := by
  obtain ⟨t, ht, -⟩ := (h.ready hb).engineStep
  have hstep : step s = .next t := (step_idle hh).trans ((if_pos hb).trans ht)
  refine ⟨t, hstep, ?_⟩
  rcases tokenEndsOrGoesOn s t h hb ht with ⟨hbusy, -⟩ | ⟨hbusy, hdone, -⟩
  · have hside := engineStep_hostSide ht
    exact .inr ⟨stepKeepsInvariant s t h hstep, hbusy, hside.host.trans hh, by rw [inputBits, hside.lat]; rfl,
      engineStep_takes (h.streamOk hb) ht hbusy⟩
  · exact .inl ⟨hbusy, hdone⟩

/-- With fewer than `n` bits left, a command completes within `n` steps. -/
theorem completes_within (n : Nat) : ∀ s : State, Inv s → s.busy = true → s.host = [] →
    inputBits s < s.p.toNat + n →
    ∃ k ≤ n, ∃ t, Host.Core.run Sys2Proof.core k s = .next t ∧ t.busy = false ∧ t.done = true := by
  induction n with
  | zero => exact fun s h _ _ hn => absurd h.cursor (Nat.not_le.2 hn)
  | succ n ih =>
    intro s h hb hh hn
    obtain ⟨t, ht, hend | ⟨hinv, hbusy, hhost, hbits, hp⟩⟩ := running_step h hb hh
    · exact ⟨1, by omega, t, run_succ ht, hend⟩
    · obtain ⟨k, hk, u, hu⟩ := ih t hinv hbusy hhost (by omega)
      exact ⟨k + 1, by omega, u, (run_succ ht).symm ▸ hu⟩

/-- Settles O50: every token but the last takes a bit, so induction on the bits that remain. -/
theorem everyCommandCompletes : Obligations.EveryCommandCompletes := by
  intro s h hb hh
  exact completes_within _ s h hb hh (by omega)

/-! ### Where a token writes when a reset may stop it (R311) -/

/-- Memory, the output and the latched parameters are the same. -/
def SameOutput (s t : State) : Prop := (t.mem, t.out, t.lat) = (s.mem, s.out, s.lat)

/-- The output only grows, and memory changes only at output bytes from `out` on: what a token keeps, whether or not a
reset stops it in the middle of a byte. -/
structure WritesFromOut (s t : State) : Prop where
  lat : t.lat = s.lat
  output : s.out.toNat ≤ t.out.toNat
  memory : OnlyOutputBytes s t s.out.toNat s.lat.dstCap.toNat

theorem SameOutput.trans {a b c : State} (h : SameOutput a b) (h' : SameOutput b c) : SameOutput a c :=
  Eq.trans h' h

theorem SameOutput.mem {s t : State} (h : SameOutput s t) : t.mem = s.mem := congrArg Prod.fst h

theorem SameOutput.writesFromOut {s t : State} (h : SameOutput s t) : WritesFromOut s t := by
  obtain ⟨hmem, hout, hlat⟩ : t.mem = s.mem ∧ t.out = s.out ∧ t.lat = s.lat := by simpa [SameOutput] using h
  exact ⟨hlat, hout ▸ Nat.le_refl _, fun a _ => by rw [hmem]⟩

theorem OnlyCursor.sameOutput {s t : State} (h : OnlyCursor s t) : SameOutput s t := by
  rw [h]
  rfl

theorem WritesFromOut.trans {a b c : State} (h : WritesFromOut a b) (h' : WritesFromOut b c) : WritesFromOut a c where
  lat := h'.lat.trans h.lat
  output := h.output.trans h'.output
  memory x hx := by
    have hdest : ∀ k, destAddr b k = destAddr a k := fun k => by simp only [destAddr, h.lat]
    rw [h'.memory x fun k hk hk' => hdest k ▸ hx k (h.output.trans hk) (h.lat ▸ hk'), h.memory x hx]

theorem sameOutput_bind {α β : Type} {m : Act α} {f : α → Act β} (hm : m.Within SameOutput)
    (hf : ∀ a, (f a).Within SameOutput) : (m.bind f).Within SameOutput :=
  Within.bind (R := SameOutput) (fun h h' => h.trans h') hm hf

theorem writesFromOut_bind {α β : Type} {m : Act α} {f : α → Act β} (hm : m.Within WritesFromOut)
    (hf : ∀ a, (f a).Within WritesFromOut) : (m.bind f).Within WritesFromOut :=
  Within.bind (R := WritesFromOut) (fun h h' => h.trans h') hm hf

theorem sameOutput_writesFromOut {α : Type} {m : Act α} (hm : m.Within SameOutput) : m.Within WritesFromOut :=
  Within.mono (R := SameOutput) (fun h => h.writesFromOut) hm

theorem cursor_sameOutput {α : Type} {m : Act α} (hm : m.Within OnlyCursor) : m.Within SameOutput :=
  Within.mono (R := OnlyCursor) (fun h => h.sameOutput) hm

theorem cursor_writesFromOut {α : Type} {m : Act α} (hm : m.Within OnlyCursor) : m.Within WritesFromOut :=
  sameOutput_writesFromOut (cursor_sameOutput hm)

theorem engineSet_sameOutput {f : State → State} (h : ∀ s, SameOutput s (f s) := by exact fun _ => rfl) :
    (engineSet f).Within SameOutput := h

theorem engineSet_writesFromOut {f : State → State} (h : ∀ s, SameOutput s (f s) := by exact fun _ => rfl) :
    (engineSet f).Within WritesFromOut := sameOutput_writesFromOut (engineSet_sameOutput h)

/-! ### The pieces that write -/

/-- One byte below the capacity, written at the address of output byte `out`. -/
theorem memWrite_onlyOutputBytes {s t : State} {b : Byte} (ho : s.out.toNat < s.lat.dstCap.toNat)
    (h : t.mem = memWrite s.mem (destAddr s s.out.toNat) b) :
    OnlyOutputBytes s t s.out.toNat s.lat.dstCap.toNat := by
  intro a ha
  rw [h, memRead_memWrite_other b (ha _ (Nat.le_refl _) ho)]

theorem stoppedAtEmit_writesFromOut (s : State) : WritesFromOut s s.stoppedAtEmit := by
  rcases stoppedAtEmit_cases s with he | ⟨-, ho, b, he⟩ <;> rw [he]
  · exact SameOutput.writesFromOut rfl
  · exact ⟨rfl, Nat.le_refl _, memWrite_onlyOutputBytes ho rfl⟩

theorem emitted_writesFromOut {s : State} (ho : s.out.toNat < s.lat.dstCap.toNat) (b : Byte) :
    WritesFromOut s (s.emitted b) :=
  ⟨rfl, by rw [emitted_out_toNat ho]; exact Nat.le_succ _, memWrite_onlyOutputBytes ho rfl⟩

theorem emitBoundary_writesFromOut : emitBoundary.Within WritesFromOut := by
  intro s
  have hb := cursor_writesFromOut boundary_within s
  unfold emitBoundary
  cases h : boundary s with
  | ok a u => rwa [h] at hb
  | raised e u =>
    rw [h] at hb
    exact WritesFromOut.trans hb (stoppedAtEmit_writesFromOut u)

theorem emit_writesFromOut (b : Byte) : (emit b).Within WritesFromOut := by
  refine writesFromOut_bind emitBoundary_writesFromOut fun _ s => ?_
  split
  · exact SameOutput.writesFromOut rfl
  · exact emitted_writesFromOut (Nat.not_le.1 ‹_›) b

theorem emitBytes_writesFromOut (bytes : List Byte) : (emitBytes bytes).Within WritesFromOut := by
  induction bytes with
  | nil => exact cursor_writesFromOut (cursor_pure _)
  | cons b bytes ih => exact writesFromOut_bind (emit_writesFromOut b) fun _ => ih

theorem copyStored_writesFromOut (n : Nat) : (copyStored n).Within WritesFromOut := by
  induction n with
  | zero => exact cursor_writesFromOut (cursor_pure _)
  | succ n ih =>
    exact writesFromOut_bind (cursor_writesFromOut (readBits_within 8)) fun _ =>
      writesFromOut_bind (emit_writesFromOut _) fun _ => ih

theorem copyMatch_writesFromOut (dist n : Nat) : (copyMatch dist n).Within WritesFromOut := by
  induction n with
  | zero => exact cursor_writesFromOut (cursor_pure _)
  | succ n ih =>
    exact fun s => writesFromOut_bind (cursor_writesFromOut (outByte_within _))
      (fun b => writesFromOut_bind (emit_writesFromOut b) fun _ => ih) s

theorem unfilterBytes_writesFromOut (pred : Nat → Nat → Nat → Nat) (rowstart n : Nat) :
    ∀ i, (unfilterBytes pred rowstart i n).Within WritesFromOut := by
  induction n with
  | zero => exact fun _ => cursor_writesFromOut (cursor_pure _)
  | succ n ih =>
    exact fun i => writesFromOut_bind (cursor_writesFromOut (readBits_within 8)) fun _ =>
      writesFromOut_bind (cursor_writesFromOut (neighbours_within _ _)) fun _ =>
        writesFromOut_bind (emit_writesFromOut _) fun _ => ih (i + 1)

theorem distSymbol_writesFromOut (d : Nat) : (distSymbol d).Within WritesFromOut := by
  refine writesFromOut_bind (cursor_writesFromOut (readBits_within _)) fun x s => ?_
  split
  · exact SameOutput.writesFromOut rfl
  · exact writesFromOut_bind (copyMatch_writesFromOut _ _) (fun _ => engineSet_writesFromOut) s

theorem rowEnd_sameOutput (s : State) : SameOutput s s.rowEnd := by
  unfold State.rowEnd
  split <;> rfl

theorem unfilterRow_writesFromOut (pred : Nat → Nat → Nat → Nat) : (unfilterRow pred).Within WritesFromOut :=
  fun s => writesFromOut_bind (unfilterBytes_writesFromOut pred _ _ 0)
    (fun _ => engineSet_writesFromOut rowEnd_sameOutput) s

theorem buildCode_writesFromOut : buildCode.Within WritesFromOut := by
  intro s
  unfold buildCode
  dsimp only
  split
  · exact SameOutput.writesFromOut rfl
  · refine WritesFromOut.trans (SameOutput.writesFromOut ?_)
      (writesFromOut_bind (emitBytes_writesFromOut _) (fun _ => engineSet_writesFromOut) _)
    rfl

theorem codeLength_writesFromOut (len : BitVec 4) : Act.Within WritesFromOut fun s =>
    if s.symIdx + 1 < s.lat.nsym.toNat then .ok () (s.pushLength len) else buildCode (s.pushLength len) := by
  intro s
  dsimp only
  split
  · exact SameOutput.writesFromOut rfl
  · refine WritesFromOut.trans (SameOutput.writesFromOut ?_) (buildCode_writesFromOut _)
    rfl

/-! ### The tokens that write nothing -/

/-- The positions whose tokens write no output (R311, assumption 9). -/
def writeFreePhases : List Phase := [.zlibHeader, .blockHeader, .dynHeader, .clSymbol, .trailer]

theorem readCodeLengthCode_sameOutput (n : Nat) : (readCodeLengthCode n).Within SameOutput := by
  refine sameOutput_bind (cursor_sameOutput (readFields_within 3 n)) fun values s => ?_
  split <;> rfl

theorem buildDynamicTrees_sameOutput : buildDynamicTrees.Within SameOutput := by
  intro s
  unfold buildDynamicTrees
  split
  · rfl
  · split
    · rfl
    · split <;> rfl

theorem clNext_sameOutput : clNext.Within SameOutput := by
  intro s
  unfold clNext
  split
  · rfl
  · exact buildDynamicTrees_sameOutput s

theorem clDirect_sameOutput (c : BitVec 4) : (clDirect c).Within SameOutput :=
  sameOutput_bind engineSet_sameOutput fun _ => clNext_sameOutput

theorem clRun_sameOutput (r : Nat) (v : BitVec 4) : (clRun r v).Within SameOutput := by
  intro s
  unfold clRun
  split
  · rfl
  · exact sameOutput_bind engineSet_sameOutput (fun _ => clNext_sameOutput) s

/-- A token's body leaves memory and the output alone, or stands at a position whose tokens write and writes output
bytes from `out` on. -/
theorem TokenBody.writes {ph : Phase} {m : Act Unit} (h : TokenBody ph m) :
    m.Within SameOutput ∨ (m.Within WritesFromOut ∧ ph ∉ writeFreePhases) := by
  cases h with
  | refuse _ e => exact .inl (cursor_sameOutput (raiseErr_within e))
  | zlibHeader | blockStored | blockFixed | blockDynamic | endOfBlock => exact .inl engineSet_sameOutput
  | blockReserved =>
    exact .inl (sameOutput_bind engineSet_sameOutput fun _ => cursor_sameOutput (raiseErr_within _))
  | dynHeader _ _ n =>
    exact .inl (sameOutput_bind (readCodeLengthCode_sameOutput n) fun _ => engineSet_sameOutput)
  | clDirect c => exact .inl (clDirect_sameOutput c)
  | clRepPrev =>
    exact .inl (sameOutput_bind (cursor_sameOutput (readBits_within 2)) fun x s => clRun_sameOutput _ _ s)
  | clRepZero n k =>
    exact .inl (sameOutput_bind (cursor_sameOutput (readBits_within n)) fun x => clRun_sameOutput _ _)
  | length k =>
    exact .inl (sameOutput_bind (cursor_sameOutput (readBits_within _)) fun _ => engineSet_sameOutput)
  | trailer a =>
    refine .inl (sameOutput_bind engineSet_sameOutput fun _ s => ?_)
    split <;> rfl
  | storedBlock n =>
    exact .inr ⟨writesFromOut_bind (copyStored_writesFromOut n) fun _ => engineSet_writesFromOut, by decide⟩
  | literal b => exact .inr ⟨emit_writesFromOut b, by decide⟩
  | distance d => exact .inr ⟨distSymbol_writesFromOut d, by decide⟩
  | filterRow pred => exact .inr ⟨unfilterRow_writesFromOut pred, by decide⟩
  | codeLength len => exact .inr ⟨codeLength_writesFromOut len, by decide⟩

theorem TokenBody.writesFromOut {ph : Phase} {m : Act Unit} (h : TokenBody ph m) : m.Within WritesFromOut :=
  h.writes.elim sameOutput_writesFromOut And.left

theorem TokenBody.sameOutput {ph : Phase} {m : Act Unit} (h : TokenBody ph m) (hph : ph ∈ writeFreePhases) :
    m.Within SameOutput :=
  h.writes.resolve_right fun hw => hw.2 hph

/-! ### The engine's step -/

/-- A relation that the cursor, the end of a command and the body of the token at hand keep, an engine step keeps. -/
theorem engineStep_within {R : State → State → Prop} (trans : ∀ {a b c}, R a b → R b c → R a c)
    (same : ∀ {a b}, SameOutput a b → R a b) {s t : State} (hbody : ∀ m, TokenBody s.phase m → m.Within R)
    (h : engineStep s = .next t) : R s t := by
  obtain ⟨f, -, ⟨e, u, hv, rfl⟩ | ⟨v, u, m, hv, hm, ht⟩⟩ := engineStep_next h
  · exact trans (same ((cursor_sameOutput (fetchValue_within f)).of_raised hv)) (same rfl)
  · have hu : R s u := same ((cursor_sameOutput (fetchValue_within f)).of_ok hv)
    cases hr : m u with
    | ok a w =>
      rw [hr] at ht
      cases ht
      exact trans hu ((hbody m hm).of_ok hr)
    | raised e w =>
      rw [hr] at ht
      cases ht
      exact trans (trans hu ((hbody m hm).of_raised hr)) (same rfl)

theorem engineStep_writesFromOut {s t : State} (h : engineStep s = .next t) : WritesFromOut s t :=
  engineStep_within (fun h h' => h.trans h') (fun h => h.writesFromOut) (fun _ hm => hm.writesFromOut) h

theorem engineStep_sameOutput {s t : State} (hph : s.phase ∈ writeFreePhases) (h : engineStep s = .next t) :
    SameOutput s t :=
  engineStep_within (fun h h' => h.trans h') id (fun _ hm => hm.sameOutput hph) h

/-! ### Reset (R310, R311) -/

/-- A reset is `deviceReset` of the idle state, or of the state `u` that the token in progress leaves, stopped at one of
its boundaries or not. -/
theorem hostReset_eq {s : State} (h : Inv s) : ∃ u, hostReset s = .next (deviceReset u) ∧ u.host = s.host ∧
    u.plat = s.plat ∧ (s.busy = false ∨ s.phase ∈ writeFreePhases → u.mem = s.mem) ∧ WritesFromOut s u := by
  cases hb : s.busy with
  | false =>
    exact ⟨s, by rw [hostReset, hb]; rfl, rfl, rfl, fun _ => rfl, SameOutput.writesFromOut rfl⟩
  | true =>
    obtain ⟨u, hu, -⟩ := (h.ready hb).reset.engineStep
    have hside := engineStep_hostSide hu
    refine ⟨u, by rw [hostReset, if_pos hb, hu], hside.host, hside.plat, fun hq => ?_, ?_⟩
    · have hph := hq.resolve_left Bool.noConfusion
      exact (engineStep_sameOutput (s := { s with abortReq := true, resetIn := true }) hph hu).mem
    · obtain ⟨hlat, hout, hmem⟩ := engineStep_writesFromOut hu
      exact ⟨hlat, hout, hmem⟩

/-- Settles O57: the registers are those of `deviceReset`, and the token in progress wrote memory from `out` on, or
nothing. -/
theorem resetPutsEveryRegister : Obligations.ResetPutsEveryRegister := by
  intro s rest h hs
  obtain ⟨u, hu, hhost, hplat, hmem, hwrites⟩ := hostReset_eq (h.host rest)
  exact ⟨deviceReset u, (step_reset hs).trans hu, rfl, rfl, rfl, rfl, rfl, rfl, rfl, rfl, rfl, rfl, rfl, rfl, rfl, rfl,
    rfl, rfl, rfl, rfl, rfl, rfl, rfl, rfl, rfl, rfl, rfl, hhost, hplat, rfl, hmem, hwrites.memory⟩

end Sys2Proof.Machine
end
